-- ==== Sys2Proof/Word.lean ====
section
/-! DEFINITION. The word types of UUCODEC (00_scope.md R5, section 7.1; 20_memory.md R41): every value is an
unsigned integer of a stated width, and there is no signed value anywhere (41_pack34.md R108). -/

namespace Sys2Proof

/-- A source byte or a wire character: `CHAR_BITS` = 8 (R5, R41). -/
abbrev Byte := BitVec 8

/-- A sextet: `SEXTET_BITS` = 6 (R5). -/
abbrev Sextet := BitVec 6

/-- A permission mode: `MODE_BITS` = 9 (R5, R13). -/
abbrev Mode := BitVec 9

/-- A host command word: `CW_BITS` = 16 (R6, R78). -/
abbrev Word := BitVec 16

end Sys2Proof
end

