-- ==== Sys2Proof/Config.lean ====
section
/-! DEFINITION. What an implementation fixes: the constants of the hardware (00_scope.md R5 and the decided rows of
R6), the type of its open parameters (R6, 92_eei_decisions.md D14, D15), and the free values of the model. -/

namespace Sys2Proof.Config

/-- `OFFSET` (R5): added to a non-zero sextet. -/
def offset : Byte := 0x20
/-- `ZERO_CHAR` (R5): the backtick, the character for sextet 0. -/
def zeroChar : Byte := 0x60
/-- `SEXTET_MASK` (R5). -/
def sextetMask : Byte := 0x3F
/-- `LINE_BYTES` (R5): most source bytes one data line stands for. -/
def lineBytes : Nat := 45
/-- `GROUP_BYTES` (R5). -/
def groupBytes : Nat := 3
/-- `GROUP_CHARS` (R5). -/
def groupChars : Nat := 4
/-- `NEWLINE` (R5): the only line terminator (44_decoder_frame.md R151). -/
def newline : Byte := 0x0A
/-- The space that separates the mode from the name in a header (30_encoding.md R61, field sep). -/
def space : Byte := 0x20
/-- `BEGIN_TAG` (R5): `begin` and its space. -/
def beginTag : List Byte := [0x62, 0x65, 0x67, 0x69, 0x6E, 0x20]
/-- `END_TAG` (R5): `end`. -/
def endTag : List Byte := [0x65, 0x6E, 0x64]
/-- `WS` (R6, D13): the six bytes that delimit header tokens. -/
def whitespace : List Byte := [0x09, 0x0A, 0x0B, 0x0C, 0x0D, 0x20]

/-- FREE VALUE, no body (log entry 4). `LENNEED` is stated for counts 1 to 45 only (42_linelen.md R122): what the
function gives for another count is whatever this is. The parser never asks (30_encoding.md R70). -/
opaque lenNeedOutside : Sextet → Nat

/-- FREE VALUE, no body (log entry 4). `LENCHARS` is stated for counts 1 to 45 only (42_linelen.md R125). -/
opaque lenCharsOutside : Sextet → Nat

end Sys2Proof.Config

namespace Sys2Proof

/-- The OPEN parameters of the platform (00_scope.md R6): `NAME_MAX` and `LINE_MAX`, the latter `none` when
unbounded. They are no registers (10_state.md R28); `ATTACH` is read by no rule and has no field. -/
structure Params where
  nameMax : Nat
  lineMax : Option Nat
deriving DecidableEq, Repr

/-- The constraints R6 puts on the open parameters: `NAME_MAX` at least 1, `LINE_MAX` at least 64 or unbounded. -/
def Params.ok (p : Params) : Bool :=
  decide (1 ≤ p.nameMax) &&
    match p.lineMax with
    | none => true
    | some m => decide (64 ≤ m)

/-- The values 92_eei_decisions.md names for a model that wants concrete ones: `NAME_MAX` = 255, `LINE_MAX`
unbounded (log entry 2). -/
def Params.suggested : Params := { nameMax := 255, lineMax := none }

end Sys2Proof
end

