-- ==== Sys2Proof/Syntax.lean ====
section
/-! DEFINITION. The instructions of UUCODEC: one constructor of `Instr` per row of spec/opcode_table.json, that is the
18 host command words and the reserved words (format CW, 30_encoding.md R78, R79), the nine line kinds of the frame
parser (format LN, R70) and the twelve combinational unit functions (format FN, 40_char6.md to 42_linelen.md); and the
small enumerations the decoder needs. -/

namespace Sys2Proof

/-- `D_STATE` (10_state.md R18), the frame parser's state; it plays the part of a mode bit in decoding a line
(30_encoding.md R69). The codes 6 and 7 are never taken and have no constructor (93_implementation_defined.md U19). -/
inductive DState where
  | dIdle | dSeek | dWait | dData | dEnd | dHalt
deriving DecidableEq, Repr

/-- The class `LENDEC` gives a count (42_linelen.md R121). -/
inductive LenClass where
  | zero | data | bad
deriving DecidableEq, Repr

/-- The nine line kinds, the rows of the line map (30_encoding.md R70). -/
inductive LineKind where
  | lBegin | lSkip | lEmpty | lTerm | lBadlen | lData | lShort | lEnd | lNoend
deriving DecidableEq, Repr

/-- The twelve unit functions (format FN). They have no selecting opcode (40_char6.md R90): a function is wired. -/
inductive Fn where
  | enc6 | dec6 | pack3 | pack2 | pack1 | unpack3 | unpack2 | unpack1 | lenenc | lendec | lenneed | lenchars
deriving DecidableEq, Repr

/-- The instruction set: every row of spec/opcode_table.json, in the table's order. -/
inductive Instr where
  -- format CW, 30_encoding.md R78
  | resetE
  | resetD
  | resetAll
  | eSetmode (m : Mode)
  | eNamech (c : Byte)
  | eStart
  | eByte (b : Byte)
  | eEof
  | eSinkfail
  | dStart (multi : Bool)
  | dChar (c : Byte)
  | dEof
  | dTgtOk
  | dTgtIofail
  | dTgtResfail
  | dSinkfail
  | dRdfail
  | eRdfail
  /-- A word that matches no row of R78 (R79). -/
  | reserved (w : Word)
  -- format LN, 30_encoding.md R70: `L` is the line without its newline, `ovl` whether it was overlong
  | lBegin (L : List Byte) (ovl : Bool)
  | lSkip (L : List Byte) (ovl : Bool)
  | lEmpty
  | lTerm (L : List Byte)
  | lBadlen (L : List Byte)
  | lData (L : List Byte)
  | lShort (L : List Byte)
  | lEnd
  | lNoend (L : List Byte) (ovl : Bool)
  -- format FN
  | enc6 (v : Sextet)
  | dec6 (c : Byte)
  | pack3 (b0 b1 b2 : Byte)
  | pack2 (b0 b1 : Byte)
  | pack1 (b0 : Byte)
  | unpack3 (c0 c1 c2 c3 : Sextet)
  | unpack2 (c0 c1 c2 : Sextet)
  | unpack1 (c0 c1 : Sextet)
  | lenenc (n : Sextet)
  | lendec (c : Byte)
  | lenneed (n : Sextet)
  | lenchars (n : Sextet)
deriving DecidableEq, Repr

end Sys2Proof
end

