-- ==== Sys2Proof/Machine/CommandWord.lean ====
section
/-! DEFINITION. The host command word as a table (30_encoding.md R78): a word `W` selects the row with
`W & mask = match`. -/

namespace Sys2Proof.Machine

/-- Whether word `w` selects the row of R78 with this match and mask. -/
def selects (mat mask w : Word) : Bool := decide (w &&& mask = mat)

/-- The (match, mask) columns of R78, row by row in the order of the table. -/
def commandRows : List (Word × Word) :=
  [(0x1001, 0xFFFF), (0x1002, 0xFFFF), (0x1003, 0xFFFF),
   (0x2000, 0xFE00), (0x3000, 0xFF00), (0x4000, 0xFFFF), (0x5000, 0xFF00), (0x6000, 0xFFFF), (0x7000, 0xFFFF),
   (0x8000, 0xFFFE), (0x9000, 0xFF00), (0xA000, 0xFFFF),
   (0xB000, 0xFFFF), (0xB001, 0xFFFF), (0xB002, 0xFFFF), (0xC000, 0xFFFF), (0xD000, 0xFFFF), (0xE000, 0xFFFF)]

/-- Whether a word matches some row of R78; a word that matches none is reserved (R79). -/
def isCommand (w : Word) : Bool := commandRows.any fun r => selects r.1 r.2 w

end Sys2Proof.Machine
end

