-- ==== Sys2Proof/Machine/Ch6.lean ====
section
/-! DEFINITION. CH6, the 6-bit character encoder/decoder (40_char6.md). Combinational and total: no state, no flags,
no faults. -/

namespace Sys2Proof.Machine

/-- `ENC6(v)` (R90): sextet to wire character. -/
def enc6 (v : Sextet) : Byte :=
  if v = 0 then Config.zeroChar else v.setWidth 8 + Config.offset

/-- `DEC6(c)` (R91): wire character to sextet, the subtraction unsigned and modulo 256, then the mask to 6 bits. -/
def dec6 (c : Byte) : Sextet :=
  ((c - Config.offset) &&& Config.sextetMask).setWidth 6

end Sys2Proof.Machine
end

