-- ==== Sys2Proof/Machine/LineLen.lean ====
section
/-! DEFINITION. LLV, the line-length validator (42_linelen.md). Combinational; it raises nothing itself. -/

namespace Sys2Proof.Machine

/-- `LENENC(n)` (R120): count to length character, which is `ENC6`. -/
def lenenc (n : Sextet) : Byte := enc6 n

/-- The class of a count (R121): 0 is ZERO, 1 to 45 DATA, 46 to 63 BAD. -/
def lenClass (n : Sextet) : LenClass :=
  if n.toNat = 0 then .zero else if n.toNat ≤ Config.lineBytes then .data else .bad

/-- `LENDEC(c)` (R121): length character to count and class. -/
def lendec (c : Byte) : Sextet × LenClass := (dec6 c, lenClass (dec6 c))

/-- Whether a count is one `LENNEED` and `LENCHARS` are stated for, 1 to 45 (R122, R125). -/
def countOk (n : Sextet) : Bool := decide (1 ≤ n.toNat) && decide (n.toNat ≤ Config.lineBytes)

/-- `r2c` of R122: the characters a last group of 1 or 2 bytes needs. -/
def restChars (r : Nat) : Nat :=
  match r with
  | 0 => 0
  | 1 => 2
  | _ => 3

/-- `LENNEED(n)` (R122): the data characters a line of count `n` must have. Outside 1 to 45 a free value. -/
def lenneed (n : Sextet) : Nat :=
  if countOk n then
    Config.groupChars * (n.toNat / Config.groupBytes) + restChars (n.toNat % Config.groupBytes)
  else Config.lenNeedOutside n

/-- `LENCHARS(n)` (R125): the data characters the encoder emits for a line of count `n`. Outside 1 to 45 a free
value. -/
def lenchars (n : Sextet) : Nat :=
  if countOk n then Config.groupChars * ((n.toNat + 2) / Config.groupBytes)
  else Config.lenCharsOutside n

end Sys2Proof.Machine
end

