-- ==== Sys2Proof/Machine/LineMap.lean ====
section
/-! DEFINITION. The line map of the frame parser (30_encoding.md R70): given the parser state and a finished line,
which of the nine line kinds it is. -/

namespace Sys2Proof.Machine

/-- The rows of R70 for `D_DATA`, in the order of R204: empty, count 0, count above 45, too few characters. -/
def dataKind (L : List Byte) : LineKind :=
  match L with
  | [] => .lEmpty
  | c :: rest =>
    match (lendec c).2 with
    | .zero => .lTerm
    | .bad => .lBadlen
    | .data => if lenneed (lendec c).1 ≤ rest.length then .lData else .lShort

/-- The line map (R70). `L` is the line without its newline and `ovl` tells whether it was overlong. No line is
presented in `D_IDLE`, `D_WAIT` or `D_HALT`. -/
def lineKind (st : DState) (L : List Byte) (ovl : Bool) : Option LineKind :=
  match st with
  | .dSeek => some (if L.take 6 = Config.beginTag then .lBegin else .lSkip)
  | .dData => some (dataKind L)
  | .dEnd => some (if L = Config.endTag ∧ ovl = false then .lEnd else .lNoend)
  | .dIdle => none
  | .dWait => none
  | .dHalt => none

end Sys2Proof.Machine
end

