-- ==== Sys2Proof/WellFormed.lean ====
section
/-! DEFINITION. Which terms of `Instr` are instructions: a reserved word matches no row (30_encoding.md R79), a line
belongs to the row of the line map that names it (R70), and a count of `LENNEED` or `LENCHARS` is 1 to 45
(42_linelen.md R122, R125). Every other operand is whatever its field's width admits (30_encoding.md R80). -/

namespace Sys2Proof

open Sys2Proof.Machine

/-- The well-formedness check, one line per constructor. -/
def Instr.wf (i : Instr) : Bool :=
  match i with
  | .resetE => true
  | .resetD => true
  | .resetAll => true
  | .eSetmode _ => true
  | .eNamech _ => true
  | .eStart => true
  | .eByte _ => true
  | .eEof => true
  | .eSinkfail => true
  | .dStart _ => true
  | .dChar _ => true
  | .dEof => true
  | .dTgtOk => true
  | .dTgtIofail => true
  | .dTgtResfail => true
  | .dSinkfail => true
  | .dRdfail => true
  | .eRdfail => true
  | .reserved w => !isCommand w
  | .lBegin L ovl => lineKind .dSeek L ovl == some .lBegin
  | .lSkip L ovl => lineKind .dSeek L ovl == some .lSkip
  | .lEmpty => true
  | .lTerm L => lineKind .dData L false == some .lTerm
  | .lBadlen L => lineKind .dData L false == some .lBadlen
  | .lData L => lineKind .dData L false == some .lData
  | .lShort L => lineKind .dData L false == some .lShort
  | .lEnd => true
  | .lNoend L ovl => lineKind .dEnd L ovl == some .lNoend
  | .enc6 _ => true
  | .dec6 _ => true
  | .pack3 _ _ _ => true
  | .pack2 _ _ => true
  | .pack1 _ => true
  | .unpack3 _ _ _ _ => true
  | .unpack2 _ _ _ => true
  | .unpack1 _ _ => true
  | .lenenc _ => true
  | .lendec _ => true
  | .lenneed n => countOk n
  | .lenchars n => countOk n

/-- An instruction is well formed when the check answers true. -/
abbrev Instr.WellFormed (i : Instr) : Prop := i.wf = true

end Sys2Proof
end

