-- ==== Sys2Proof/Decode.lean ====
section
/-! DEFINITION. The decoder and the encoder. What is encoded in this hardware is of three formats (30_encoding.md): a
host command word (CW, R78), a line of the wire format read in a parser state (LN, R69, R70), and the operand bits of a
combinational unit function (FN; no selecting opcode, the function is wired: 40_char6.md R90). -/

namespace Sys2Proof

open Sys2Proof.Machine

/-- One encoded instruction. -/
inductive Encoding where
  /-- Format CW: a 16-bit host command word. -/
  | word (w : Word)
  /-- Format LN: a finished line `L` and its overlong mark, read in parser state `st`. -/
  | line (st : DState) (L : List Byte) (ovl : Bool)
  /-- Format FN: the operand bits of a unit function, the first operand most significant, in the low bits. -/
  | call (f : Fn) (bits : BitVec 24)
deriving DecidableEq, Repr

/-- Why the decoder rejects an encoding. A reserved command word is no such case: it decodes to the table's own row
`(reserved)`. -/
inductive DecodeError where
  /-- No line is ever presented in `D_IDLE`, `D_WAIT` or `D_HALT` (R70). -/
  | noLineInThisState
  /-- Operand bits above the width of the function's operands are not zero. -/
  | operandTooWide
  /-- `LENNEED` and `LENCHARS` take a count of 1 to 45 (42_linelen.md R122, R125). -/
  | countOutOfRange
deriving DecidableEq, Repr

/-- The command word decoder (R78, R79, R80): total on all 65536 words; a word that matches no row is reserved. -/
def decodeWord (w : Word) : Instr :=
  if selects 0x1001 0xFFFF w then .resetE
  else if selects 0x1002 0xFFFF w then .resetD
  else if selects 0x1003 0xFFFF w then .resetAll
  else if selects 0x2000 0xFE00 w then .eSetmode (w.extractLsb' 0 9)
  else if selects 0x3000 0xFF00 w then .eNamech (w.extractLsb' 0 8)
  else if selects 0x4000 0xFFFF w then .eStart
  else if selects 0x5000 0xFF00 w then .eByte (w.extractLsb' 0 8)
  else if selects 0x6000 0xFFFF w then .eEof
  else if selects 0x7000 0xFFFF w then .eSinkfail
  else if selects 0x8000 0xFFFE w then .dStart (w.getLsbD 0)
  else if selects 0x9000 0xFF00 w then .dChar (w.extractLsb' 0 8)
  else if selects 0xA000 0xFFFF w then .dEof
  else if selects 0xB000 0xFFFF w then .dTgtOk
  else if selects 0xB001 0xFFFF w then .dTgtIofail
  else if selects 0xB002 0xFFFF w then .dTgtResfail
  else if selects 0xC000 0xFFFF w then .dSinkfail
  else if selects 0xD000 0xFFFF w then .dRdfail
  else if selects 0xE000 0xFFFF w then .eRdfail
  else .reserved w

/-- The instruction of a line of a given kind. In the data section the overlong mark has no effect
(44_decoder_frame.md R151) and the rows carry no such operand. -/
def lineInstr (k : LineKind) (L : List Byte) (ovl : Bool) : Instr :=
  match k with
  | .lBegin => .lBegin L ovl
  | .lSkip => .lSkip L ovl
  | .lEmpty => .lEmpty
  | .lTerm => .lTerm L
  | .lBadlen => .lBadlen L
  | .lData => .lData L
  | .lShort => .lShort L
  | .lEnd => .lEnd
  | .lNoend => .lNoend L ovl

/-- The line decoder (R69, R70): the parser state decides how a line is read. -/
def decodeLine (st : DState) (L : List Byte) (ovl : Bool) : Except DecodeError Instr :=
  match lineKind st L ovl with
  | some k => .ok (lineInstr k L ovl)
  | none => .error .noLineInThisState

/-- How many operand bits a unit function takes (the FN rows of spec/opcode_table.json). -/
def Fn.width (f : Fn) : Nat :=
  match f with
  | .enc6 => 6
  | .dec6 => 8
  | .pack3 => 24
  | .pack2 => 16
  | .pack1 => 8
  | .unpack3 => 24
  | .unpack2 => 18
  | .unpack1 => 12
  | .lenenc => 6
  | .lendec => 8
  | .lenneed => 6
  | .lenchars => 6

/-- The operands of a unit function cut from its operand bits, the first operand most significant (20_memory.md R44,
30_encoding.md R66). -/
def callInstr (f : Fn) (b : BitVec 24) : Instr :=
  match f with
  | .enc6 => .enc6 (b.extractLsb' 0 6)
  | .dec6 => .dec6 (b.extractLsb' 0 8)
  | .pack3 => .pack3 (b.extractLsb' 16 8) (b.extractLsb' 8 8) (b.extractLsb' 0 8)
  | .pack2 => .pack2 (b.extractLsb' 8 8) (b.extractLsb' 0 8)
  | .pack1 => .pack1 (b.extractLsb' 0 8)
  | .unpack3 => .unpack3 (b.extractLsb' 18 6) (b.extractLsb' 12 6) (b.extractLsb' 6 6) (b.extractLsb' 0 6)
  | .unpack2 => .unpack2 (b.extractLsb' 12 6) (b.extractLsb' 6 6) (b.extractLsb' 0 6)
  | .unpack1 => .unpack1 (b.extractLsb' 6 6) (b.extractLsb' 0 6)
  | .lenenc => .lenenc (b.extractLsb' 0 6)
  | .lendec => .lendec (b.extractLsb' 0 8)
  | .lenneed => .lenneed (b.extractLsb' 0 6)
  | .lenchars => .lenchars (b.extractLsb' 0 6)

/-- The decoder of a function's operands: bits above the operands, and a count outside 1 to 45 for `LENNEED` and
`LENCHARS`, are rejected by name. -/
def decodeCall (f : Fn) (b : BitVec 24) : Except DecodeError Instr :=
  if 2 ^ f.width ≤ b.toNat then .error .operandTooWide
  else if (callInstr f b).wf then .ok (callInstr f b)
  else .error .countOutOfRange

/-- The decoder: total on every encoding. -/
def decode (e : Encoding) : Except DecodeError Instr :=
  match e with
  | .word w => .ok (decodeWord w)
  | .line st L ovl => decodeLine st L ovl
  | .call f b => decodeCall f b

/-- The encoder, from the same tables: the command word of R78; the line and the parser state it is read in (R70); the
function and its operand bits. -/
def encode (i : Instr) : Encoding :=
  match i with
  | .resetE => .word 0x1001
  | .resetD => .word 0x1002
  | .resetAll => .word 0x1003
  | .eSetmode m => .word (0x2000 ||| m.setWidth 16)
  | .eNamech c => .word (0x3000 ||| c.setWidth 16)
  | .eStart => .word 0x4000
  | .eByte b => .word (0x5000 ||| b.setWidth 16)
  | .eEof => .word 0x6000
  | .eSinkfail => .word 0x7000
  | .dStart multi => .word (0x8000 ||| (BitVec.ofBool multi).setWidth 16)
  | .dChar c => .word (0x9000 ||| c.setWidth 16)
  | .dEof => .word 0xA000
  | .dTgtOk => .word 0xB000
  | .dTgtIofail => .word 0xB001
  | .dTgtResfail => .word 0xB002
  | .dSinkfail => .word 0xC000
  | .dRdfail => .word 0xD000
  | .eRdfail => .word 0xE000
  | .reserved w => .word w
  | .lBegin L ovl => .line .dSeek L ovl
  | .lSkip L ovl => .line .dSeek L ovl
  | .lEmpty => .line .dData [] false
  | .lTerm L => .line .dData L false
  | .lBadlen L => .line .dData L false
  | .lData L => .line .dData L false
  | .lShort L => .line .dData L false
  | .lEnd => .line .dEnd Config.endTag false
  | .lNoend L ovl => .line .dEnd L ovl
  | .enc6 v => .call .enc6 (v.setWidth 24)
  | .dec6 c => .call .dec6 (c.setWidth 24)
  | .pack3 b0 b1 b2 => .call .pack3 (b0 ++ b1 ++ b2)
  | .pack2 b0 b1 => .call .pack2 ((b0 ++ b1).setWidth 24)
  | .pack1 b0 => .call .pack1 (b0.setWidth 24)
  | .unpack3 c0 c1 c2 c3 => .call .unpack3 (c0 ++ c1 ++ c2 ++ c3)
  | .unpack2 c0 c1 c2 => .call .unpack2 ((c0 ++ c1 ++ c2).setWidth 24)
  | .unpack1 c0 c1 => .call .unpack1 ((c0 ++ c1).setWidth 24)
  | .lenenc n => .call .lenenc (n.setWidth 24)
  | .lendec c => .call .lendec (c.setWidth 24)
  | .lenneed n => .call .lenneed (n.setWidth 24)
  | .lenchars n => .call .lenchars (n.setWidth 24)

/-- The command word of an instruction, `none` for a line or a function. -/
def commandWord (i : Instr) : Option Word :=
  match encode i with
  | .word w => some w
  | .line _ _ _ => none
  | .call _ _ => none

/-- What the decoder answers, as an option. -/
def decoded (e : Encoding) : Option Instr :=
  match decode e with
  | .ok i => some i
  | .error _ => none

/-- An opcode-table row's bits read as an encoding (log entry 6): 16 bits are a command word; 8, 24 and 48 bits are the
characters of a line, the first most significant, read in the parser state whose row has that many match bits
(`L.TERM` in `D_DATA`, `L.END` in `D_END`, `L.BEGIN` in `D_SEEK`). The FN rows have no selecting bits. -/
def tableEncoding (nbits w : Nat) : Option Encoding :=
  match nbits with
  | 16 => some (.word (BitVec.ofNat 16 w))
  | 8 => some (.line .dData [BitVec.ofNat 8 w] false)
  | 24 => some (.line .dEnd [BitVec.ofNat 8 (w >>> 16), BitVec.ofNat 8 (w >>> 8), BitVec.ofNat 8 w] false)
  | 48 => some (.line .dSeek
      [BitVec.ofNat 8 (w >>> 40), BitVec.ofNat 8 (w >>> 32), BitVec.ofNat 8 (w >>> 24),
       BitVec.ofNat 8 (w >>> 16), BitVec.ofNat 8 (w >>> 8), BitVec.ofNat 8 w] false)
  | _ => none

/-- The instruction the decoder reads from an opcode-table row's bits. -/
def decodeTableWord (nbits w : Nat) : Option Instr :=
  match tableEncoding nbits w with
  | some e => decoded e
  | none => none

end Sys2Proof
end

