-- ==== Sys2Proof/Machine/State.lean ====
section
/-! DEFINITION. The state of UUCODEC as plain data (10_state.md R10 to R31): the registers of ENC, the registers of
DEC, and what stands on the host's side of the command port. A buffer and its count are ONE list: the elements at and
above the count hold no value and no rule reads them (R14, R15, R24, R25), so the list holds exactly the elements that
do, and the count is its length (log entry 3). -/

namespace Sys2Proof.Machine

/-- `E_STATE` (R12). -/
inductive EState where
  | eIdle | eRun | eDone | eFail
deriving DecidableEq, Repr

/-- The fault codes (60_exceptions.md R191), the values of `E_ERR` and `D_ERR`. Codes 11 to 15 are never produced and
have no constructor (93_implementation_defined.md U19). -/
inductive FaultCode where
  | ok | noBegin | noEnd | shortFile | resolve | targetIo | sinkIo | sourceIo | badHeader | badLength | shortLine
deriving DecidableEq, Repr

/-- Why a command is refused (60_exceptions.md R205). -/
inductive Reason where
  | badCommand | badState | nameFull | noName
deriving DecidableEq, Repr

/-- What the host learns of its latest command from the transaction itself (R205). -/
inductive Ack where
  /-- No command has been given yet. -/
  | idle
  /-- The command was performed, if only as a no-operation (44_decoder_frame.md R178). -/
  | performed
  /-- The command was refused: no register and no sink changed. -/
  | refused (r : Reason)
deriving DecidableEq, Repr

/-- A DEC output symbol (30_encoding.md R83). -/
inductive DSym where
  /-- `BYTE(b)`. -/
  | byte (b : Byte)
  /-- `HDR(mode, name)`. -/
  | hdr (mode : Mode) (name : List Byte)
  /-- `END(code)`. -/
  | endCode (code : FaultCode)
deriving DecidableEq, Repr

/-- The result of a unit function run as an instruction of its own (log entry 5). -/
inductive FnResult where
  | char (c : Byte)
  | sextet (v : Sextet)
  | quad (s0 s1 s2 s3 : Sextet)
  | bytes (bs : List Byte)
  | counted (n : Sextet) (cls : LenClass)
  | count (n : Nat)
deriving DecidableEq, Repr

/-- The registers of ENC (R12 to R16). `E_NLEN` is the length of `name`, `E_CNT` the length of `chunk`. -/
structure Enc where
  /-- `E_STATE` (R12). -/
  state : EState
  /-- `E_MODE` (R13). -/
  mode : Mode
  /-- `E_NAME[0]` to `E_NAME[E_NLEN - 1]` (R14). -/
  name : List Byte
  /-- `E_CHUNK[0]` to `E_CHUNK[E_CNT - 1]` (R15). -/
  chunk : List Byte
  /-- `E_ERR` (R16). -/
  err : FaultCode
deriving DecidableEq, Repr

/-- The registers of DEC (R18 to R25). `D_NLEN` is the length of `name`, `D_LLEN` the length of `lbuf`. -/
structure Dec where
  /-- `D_STATE` (R18). -/
  state : DState
  /-- `D_MULTI` (R19). -/
  multi : Bool
  /-- `D_SEEN` (R20). -/
  seen : Bool
  /-- `D_ANYFAIL` (R21). -/
  anyFail : Bool
  /-- `D_ERR` (R22). -/
  err : FaultCode
  /-- `D_MODE` (R23). -/
  mode : Mode
  /-- `D_NAME[0]` to `D_NAME[D_NLEN - 1]` (R24). -/
  name : List Byte
  /-- `D_LBUF[0]` to `D_LBUF[D_LLEN - 1]` (R25). -/
  lbuf : List Byte
  /-- `D_OVER` (R25). -/
  ovl : Bool
deriving DecidableEq, Repr

/-- The host's side (20_memory.md R40, 10_state.md R28): MODEL's own fields, no registers of the block. -/
structure Link where
  /-- The command words the host has yet to present, the next one first. -/
  port : List Word
  /-- The answer to the latest command (R205). -/
  ack : Ack
  /-- The characters ENC has appended to its sink, oldest first. -/
  eSink : List Byte
  /-- The symbols DEC has appended to its sink, oldest first. -/
  dSink : List DSym
  /-- The outputs of the unit function last run as an instruction of its own (log entry 5). -/
  fnOut : Option FnResult
deriving DecidableEq, Repr

/-- The machine. `params` are the open parameters (00_scope.md R6), which no rule writes. -/
structure State where
  enc : Enc
  dec : Dec
  link : Link
  params : Params
deriving DecidableEq, Repr

/-- Why the machine stops with a fault: it never does. No input makes a unit unable to take a further command
(93_implementation_defined.md, treatment words; U19), and a fault of the stream is data that the machine records and
goes on from (60_exceptions.md R200, R201). SAFE: no outcome is hidden behind a stop. -/
inductive Fault where
deriving DecidableEq, Repr

/-- Why the machine has no meaning for an instruction. -/
inductive Refusal where
  /-- Raised by `exec` for an instruction not modelled yet; no arm raises it now. SAFE: the model stops. -/
  | notModelled (mnemonic : String)
deriving DecidableEq, Repr

/-- The three outcomes of a step of this machine. -/
abbrev Out := Host.Outcome State Fault Refusal

/-- The reset values of the ENC registers (R29). -/
def Enc.reset : Enc := { state := .eIdle, mode := 0, name := [], chunk := [], err := .ok }

/-- The reset values of the DEC registers (R29). `D_MODE` holds no value until a header is parsed and no rule reads
it: the 0 here is the model's (log entry 1). -/
def Dec.reset : Dec :=
  { state := .dIdle, multi := false, seen := false, anyFail := false, err := .ok, mode := 0, name := [],
    lbuf := [], ovl := false }

/-- Nothing given, nothing emitted (70_reset_and_hazards.md R220). -/
def Link.reset : Link := { port := [], ack := .idle, eSink := [], dSink := [], fnOut := none }

/-- Power-on reset on a platform with the given open parameters (70_reset_and_hazards.md R220). -/
def State.resetOn (p : Params) : State :=
  { enc := Enc.reset, dec := Dec.reset, link := Link.reset, params := p }

/-- Power-on reset, with the parameter values the spec suggests (log entry 2). -/
def State.reset : State := State.resetOn Params.suggested

end Sys2Proof.Machine
end

