-- ==== Sys2Proof/Machine/Flags.lean ====
section
/-! DEFINITION. The status flags and status words (10_state.md sections 2 to 4). The block has no arithmetic condition
codes: no operation of CH6, PK34 or LLV sets a flag (41_pack34.md R108). The status words are read-only views (R17,
R26). -/

namespace Sys2Proof.Machine

/-- The number of an encoder state (R12). -/
def EState.code (e : EState) : BitVec 2 :=
  match e with
  | .eIdle => 0
  | .eRun => 1
  | .eDone => 2
  | .eFail => 3

/-- The number of a parser state (R18). -/
def dStateCode (d : DState) : BitVec 3 :=
  match d with
  | .dIdle => 0
  | .dSeek => 1
  | .dWait => 2
  | .dData => 3
  | .dEnd => 4
  | .dHalt => 5

/-- The number of a fault code (60_exceptions.md R191). -/
def FaultCode.code (f : FaultCode) : BitVec 4 :=
  match f with
  | .ok => 0
  | .noBegin => 1
  | .noEnd => 2
  | .shortFile => 3
  | .resolve => 4
  | .targetIo => 5
  | .sinkIo => 6
  | .sourceIo => 7
  | .badHeader => 8
  | .badLength => 9
  | .shortLine => 10

/-- `E_NLEN` (R14). -/
def Enc.nlen (e : Enc) : Nat := e.name.length
/-- `E_CNT` (R15). -/
def Enc.cnt (e : Enc) : Nat := e.chunk.length
/-- `D_NLEN` (R24). -/
def Dec.nlen (d : Dec) : Nat := d.name.length
/-- `D_LLEN` (R25). -/
def Dec.llen (d : Dec) : Nat := d.lbuf.length

/-- `E_STATUS` (R17): `E_STATUS[1:0] = E_STATE`, `E_STATUS[5:2] = E_ERR`. -/
def Enc.status (e : Enc) : BitVec 6 := e.err.code ++ e.state.code

/-- `D_STATUS` (R26): `[2:0] = D_STATE`, `[3] = D_MULTI`, `[4] = D_SEEN`, `[5] = D_ANYFAIL`, `[9:6] = D_ERR`. -/
def Dec.status (d : Dec) : BitVec 10 :=
  d.err.code ++ (BitVec.ofBool d.anyFail ++ (BitVec.ofBool d.seen ++ (BitVec.ofBool d.multi ++ dStateCode d.state)))

/-- The session flags and code as `D.START` leaves them (44_decoder_frame.md R150). -/
def Dec.startFlags (d : Dec) (multi : Bool) : Dec :=
  { d with multi := multi, seen := false, anyFail := false, err := .ok }

/-- `D_SEEN <- 1` (R20, 44_decoder_frame.md R155). -/
def Dec.markSeen (d : Dec) : Dec := { d with seen := true }

end Sys2Proof.Machine
end

