-- ==== Sys2Proof/Machine/Pack34.lean ====
section
/-! DEFINITION. PK34, the 3-to-4 byte-packing engine (41_pack34.md). Combinational and total. Every operand is widened
to 16 bits before it is shifted, so that no bit is lost before the mask (00_scope.md section 7.1, R108). -/

namespace Sys2Proof.Machine

/-- Four sextets, `s0` sent first (20_memory.md R44). -/
structure Quad where
  s0 : Sextet
  s1 : Sextet
  s2 : Sextet
  s3 : Sextet
deriving DecidableEq, Repr

/-- Three bytes, `o0` emitted first (20_memory.md R44). -/
structure Triple where
  o0 : Byte
  o1 : Byte
  o2 : Byte
deriving DecidableEq, Repr

/-- A value widened for the shifts of R108. -/
def wide {w : Nat} (v : BitVec w) : BitVec 16 := v.setWidth 16

/-- `& 0x3F` and the cut to a sextet. -/
def toSextet (v : BitVec 16) : Sextet := (v &&& 0x3F#16).setWidth 6

/-- `& 0xFF` and the cut to a byte. -/
def toByte (v : BitVec 16) : Byte := (v &&& 0xFF#16).setWidth 8

/-- `PACK3(b0, b1, b2)` (R100). -/
def pack3 (b0 b1 b2 : Byte) : Quad where
  s0 := toSextet (wide b0 >>> 2)
  s1 := toSextet ((wide b0 <<< 4) ||| (wide b1 >>> 4))
  s2 := toSextet ((wide b1 <<< 2) ||| (wide b2 >>> 6))
  s3 := toSextet (wide b2)

/-- `PACK2(b0, b1)` (R101): the missing byte is the constant 0x00. -/
def pack2 (b0 b1 : Byte) : Quad := pack3 b0 b1 0x00

/-- `PACK1(b0)` (R102). -/
def pack1 (b0 : Byte) : Quad := pack3 b0 0x00 0x00

/-- The first byte of a group: `((c0 << 2) | (c1 >> 4)) & 0xFF` (R103, R104, R105). -/
def unpackO0 (c0 c1 : Sextet) : Byte := toByte ((wide c0 <<< 2) ||| (wide c1 >>> 4))

/-- The second byte of a group: `((c1 << 4) | (c2 >> 2)) & 0xFF` (R103, R104). -/
def unpackO1 (c1 c2 : Sextet) : Byte := toByte ((wide c1 <<< 4) ||| (wide c2 >>> 2))

/-- The third byte of a group: `((c2 << 6) | c3) & 0xFF` (R103). -/
def unpackO2 (c2 c3 : Sextet) : Byte := toByte ((wide c2 <<< 6) ||| wide c3)

/-- `UNPACK3(c0, c1, c2, c3)` (R103). -/
def unpack3 (c0 c1 c2 c3 : Sextet) : Triple where
  o0 := unpackO0 c0 c1
  o1 := unpackO1 c1 c2
  o2 := unpackO2 c2 c3

/-- `UNPACK2(c0, c1, c2)` (R104): the last group of a line when exactly 2 bytes remain. -/
def unpack2 (c0 c1 c2 : Sextet) : Byte × Byte := (unpackO0 c0 c1, unpackO1 c1 c2)

/-- `UNPACK1(c0, c1)` (R105): the last group of a line when exactly 1 byte remains. -/
def unpack1 (c0 c1 : Sextet) : Byte := unpackO0 c0 c1

end Sys2Proof.Machine
end

