-- ==== Sys2Proof/Machine/Operands.lean ====
section
/-! DEFINITION. Operand assembly (30_encoding.md section 2) and the text the frame generator writes: the octal mode, the
header line, the data line (43_encoder_frame.md), the header tokens (44_decoder_frame.md R156) and the bytes of a data
line (R168). -/

namespace Sys2Proof.Machine

/-- One octal digit character: `0x30 + d` (43_encoder_frame.md R132). -/
def octalDigit (d : BitVec 3) : Byte := 0x30#8 + d.setWidth 8

/-- `octal(m)` (R132): the shortest octal numeral, `0` for zero. -/
def octal (m : Mode) : List Byte :=
  let d2 := m.extractLsb' 6 3
  let d1 := m.extractLsb' 3 3
  let d0 := m.extractLsb' 0 3
  if d2 ≠ 0 then [octalDigit d2, octalDigit d1, octalDigit d0]
  else if d1 ≠ 0 then [octalDigit d1, octalDigit d0]
  else [octalDigit d0]

/-- The header line as `E.START` emits it (R134, 30_encoding.md R61). -/
def headerLine (m : Mode) (name : List Byte) : List Byte :=
  Config.beginTag ++ octal m ++ [Config.space] ++ name ++ [Config.newline]

/-- The four characters of a group of sextets (R136). -/
def quadChars (q : Quad) : List Byte := [enc6 q.s0, enc6 q.s1, enc6 q.s2, enc6 q.s3]

/-- The data characters of a chunk, group by group; the last group is `PACK2` or `PACK1` when 2 or 1 bytes are left
(R136). -/
def groupChars (chunk : List Byte) : List Byte :=
  match chunk with
  | [] => []
  | [b0] => quadChars (pack1 b0)
  | [b0, b1] => quadChars (pack2 b0 b1)
  | b0 :: b1 :: b2 :: rest => quadChars (pack3 b0 b1 b2) ++ groupChars rest

/-- A count as the sextet the length character carries (30_encoding.md R68). -/
def countSextet (n : Nat) : Sextet := BitVec.ofNat 6 n

/-- What `EmitLine(n)` emits for a chunk of `n` bytes (R136): length character, groups, newline. -/
def dataLine (chunk : List Byte) : List Byte :=
  [lenenc (countSextet chunk.length)] ++ groupChars chunk ++ [Config.newline]

/-- The terminator line: the length character for 0 and a newline (R137, 30_encoding.md R63). -/
def termLine : List Byte := [lenenc 0, Config.newline]

/-- The trailer line `end` (R137, 30_encoding.md R64). -/
def trailerLine : List Byte := Config.endTag ++ [Config.newline]

/-- Whether a byte is one of the whitespace bytes `WS` (00_scope.md R6). -/
def isSpace (x : Byte) : Bool := Config.whitespace.contains x

/-- A finished token joins the list unless it is empty. -/
def flushToken (cur : List Byte) (rest : List (List Byte)) : List (List Byte) :=
  if cur = [] then rest else cur :: rest

/-- The loop of R156: `cur` is the token being read. -/
def tokensFrom (cur : List Byte) (S : List Byte) : List (List Byte) :=
  match S with
  | [] => flushToken cur []
  | x :: rest => if isSpace x then flushToken cur (tokensFrom [] rest) else tokensFrom (cur ++ [x]) rest

/-- `tokens(S)` (44_decoder_frame.md R156): the maximal runs of bytes that are not whitespace, in order. -/
def tokens (S : List Byte) : List (List Byte) := tokensFrom [] S

/-- Whether a byte is an octal digit character, 0x30 to 0x37 (44_decoder_frame.md R155). -/
def isOctal (d : Byte) : Bool := decide (0x30 ≤ d.toNat) && decide (d.toNat ≤ 0x37)

/-- One digit into the mode accumulator: `((mode << 3) | (d - 0x30)) & 0x1FF` (30_encoding.md R76); nine bits wide, the
accumulator is its own mask. -/
def modeStep (m : Mode) (d : Byte) : Mode := (m <<< 3) ||| (d - 0x30#8).setWidth 9

/-- The mode operand of a header (R76): the octal numeral modulo 512. -/
def modeOf (digits : List Byte) : Mode := digits.foldl modeStep 0

/-- The header of a `begin` line, `none` for a fault BAD_HEADER, the tests in the order of R204: overlong, fewer than
two tokens, a byte of the mode token that is not octal, a name longer than `NAME_MAX` (44_decoder_frame.md R155). -/
def parseHeader (nameMax : Nat) (L : List Byte) (ovl : Bool) : Option (Mode × List Byte) :=
  if ovl then none
  else
    match tokens (L.drop 6) with
    | modeTok :: nameTok :: _ =>
      if modeTok.all isOctal = false then none
      else if nameMax < nameTok.length then none
      else some (modeOf modeTok, nameTok)
    | _ => none

/-- The bytes of a data line of count `n` from its data characters, the loop of R168. The last case is never reached on
a line that has `LENNEED(n)` characters. -/
def dataBytes (n : Nat) (cs : List Byte) : List Byte :=
  match n, cs with
  | 0, _ => []
  | 1, c0 :: c1 :: _ => [unpack1 (dec6 c0) (dec6 c1)]
  | 2, c0 :: c1 :: c2 :: _ =>
    let o := unpack2 (dec6 c0) (dec6 c1) (dec6 c2)
    [o.1, o.2]
  | k + 3, c0 :: c1 :: c2 :: c3 :: rest =>
    let o := unpack3 (dec6 c0) (dec6 c1) (dec6 c2) (dec6 c3)
    o.o0 :: o.o1 :: o.o2 :: dataBytes k rest
  | _, _ => []

/-- The bytes of a whole data line `L` (R168): its first character gives the count. -/
def lineBytes (L : List Byte) : List Byte :=
  match L with
  | [] => []
  | c :: cs => dataBytes (lendec c).1.toNat cs

end Sys2Proof.Machine
end

