-- ==== Sys2Proof/Machine/Ops.lean ====
section
/-! DEFINITION. The shared operations: writing a unit's registers, appending to a sink, ending a command as performed or
refused (60_exceptions.md R205), fault entry (R200, R201) and the return built into it (R203, 44_decoder_frame.md
R159). -/

namespace Sys2Proof.Machine

/-- ENC's registers become `e`. -/
def State.setEnc (s : State) (e : Enc) : State := { s with enc := e }

/-- DEC's registers become `d`. -/
def State.setDec (s : State) (d : Dec) : State := { s with dec := d }

/-- The host's answer becomes `a`. -/
def State.setAck (s : State) (a : Ack) : State := { s with link := { s.link with ack := a } }

/-- The commands yet to come become `p`. -/
def State.setPort (s : State) (p : List Word) : State := { s with link := { s.link with port := p } }

/-- The function output becomes `r` (log entry 5). -/
def State.setFnOut (s : State) (r : FnResult) : State := { s with link := { s.link with fnOut := some r } }

/-- `EOutStr(cs)` (00_scope.md 7.3): ENC appends characters to its sink, in order (20_memory.md R51, R55). -/
def State.eOutStr (s : State) (cs : List Byte) : State := { s with link := { s.link with eSink := s.link.eSink ++ cs } }

/-- `DOut` of each symbol in order (00_scope.md 7.3). -/
def State.dOutAll (s : State) (ys : List DSym) : State := { s with link := { s.link with dSink := s.link.dSink ++ ys } }

/-- The command was performed and left state `s` (R7). -/
def done (s : State) : Out := .next (s.setAck .performed)

/-- The command is refused (60_exceptions.md R205): the unit does nothing, and the host learns the reason from the
transaction (log entry 7). -/
def turnAway (r : Reason) (s : State) : Out := .next (s.setAck (.refused r))

/-- Fault entry in ENC (60_exceptions.md R201): `E_ERR <- code; E_STATE <- E_FAIL`; no symbol is emitted. -/
def raiseEnc (code : FaultCode) (s : State) : State := s.setEnc { s.enc with err := code, state := .eFail }

/-- Fault entry in DEC (60_exceptions.md R200): `D_ERR <- code; D_ANYFAIL <- 1; DOut(END(code)); D_STATE <- st`. -/
def raiseDec (code : FaultCode) (st : DState) (s : State) : State :=
  (s.setDec { s.dec with err := code, anyFail := true, state := st }).dOutAll [.endCode code]

/-- `Next()` (44_decoder_frame.md R159), which is also the return from a per-stream fault (60_exceptions.md R203). -/
def nextStream (d : Dec) : DState := if d.multi then .dSeek else .dHalt

/-- `D_STATE <- st`. -/
def goDec (st : DState) (s : State) : State := s.setDec { s.dec with state := st }

/-- `D_LLEN <- 0; D_OVER <- 0`: the line assembler is cleared (44_decoder_frame.md R151, R175). -/
def clearLine (s : State) : State := s.setDec { s.dec with lbuf := [], ovl := false }

/-- Whether the line assembler keeps one more character: `D_LLEN < LINE_MAX` (44_decoder_frame.md R151). -/
def lineHasRoom (p : Params) (lbuf : List Byte) : Bool :=
  match p.lineMax with
  | none => true
  | some m => decide (lbuf.length < m)

/-- A character other than a newline enters the line assembler (44_decoder_frame.md R151). -/
def assemble (c : Byte) (s : State) : State :=
  if lineHasRoom s.params s.dec.lbuf then s.setDec { s.dec with lbuf := s.dec.lbuf ++ [c] }
  else s.setDec { s.dec with ovl := true }

/-- A line kind is performed where the line map selects it, that is where the rule says it applies; presented anywhere
else it is refused like a command the unit gives no meaning in its present state (log entry 8). The parser never
does that. -/
def onLine (k : LineKind) (L : List Byte) (ovl : Bool) (s : State) (eff : State) : Out :=
  if lineKind s.dec.state L ovl = some k then done eff else turnAway .badState s

/-- `EmitLine(E_CNT)` (43_encoder_frame.md R136), for the chunk as it stands. -/
def emitChunk (chunk : List Byte) (s : State) : State := s.eOutStr (dataLine chunk)

end Sys2Proof.Machine
end

