-- ==== Sys2Proof/Machine/Lines.lean ====
section
/-! DEFINITION. The nine line kinds of the frame parser (44_decoder_frame.md R154 to R171). Each is performed in the
state and on the line the line map gives it (`onLine`, 30_encoding.md R70). -/

namespace Sys2Proof.Machine

/-- `L.SKIP` (R154): nothing. -/
def execLSkip (L : List Byte) (ovl : Bool) (s : State) : Out := onLine .lSkip L ovl s s

/-- `ParseOk(M, N)` (R157): the mode and the name are stored and delivered, and the parser waits for the host. -/
def parseOk (m : Mode) (name : List Byte) (s : State) : State :=
  (s.setDec { s.dec with mode := m, name := name, state := .dWait }).dOutAll [.hdr m name]

/-- The effect of `L.BEGIN` (R155, R158). -/
def beginLine (L : List Byte) (ovl : Bool) (s : State) : State :=
  let s1 := s.setDec s.dec.markSeen
  match parseHeader s.params.nameMax L ovl with
  | some (m, name) => parseOk m name s1
  | none => raiseDec .badHeader (nextStream s1.dec) s1

/-- `L.BEGIN` (R155). -/
def execLBegin (L : List Byte) (ovl : Bool) (s : State) : Out := onLine .lBegin L ovl s (beginLine L ovl s)

/-- `L.EMPTY` (R165): `raise ShortLine(10) to Next()`. -/
def execLEmpty (s : State) : Out := onLine .lEmpty [] false s (raiseDec .shortLine (nextStream s.dec) s)

/-- `L.TERM` (R166): `D_STATE <- D_END`. -/
def execLTerm (L : List Byte) (s : State) : Out := onLine .lTerm L false s (goDec .dEnd s)

/-- `L.BADLEN` (R167): `raise BadLength(9) to Next()`. -/
def execLBadlen (L : List Byte) (s : State) : Out :=
  onLine .lBadlen L false s (raiseDec .badLength (nextStream s.dec) s)

/-- `L.DATA` (R168): the bytes of the line; `D_STATE` stays `D_DATA`. -/
def execLData (L : List Byte) (s : State) : Out :=
  onLine .lData L false s (s.dOutAll ((lineBytes L).map DSym.byte))

/-- `L.SHORT` (R169): `raise ShortLine(10) to Next()`; not even the complete groups are emitted. -/
def execLShort (L : List Byte) (s : State) : Out :=
  onLine .lShort L false s (raiseDec .shortLine (nextStream s.dec) s)

/-- `L.END` (R170): `DOut(END(0)); D_STATE <- Next()`. -/
def execLEnd (s : State) : Out :=
  onLine .lEnd Config.endTag false s ((goDec (nextStream s.dec) s).dOutAll [.endCode .ok])

/-- `L.NOEND` (R171): `raise NoEnd(2) to Next()`; the line is consumed. -/
def execLNoend (L : List Byte) (ovl : Bool) (s : State) : Out :=
  onLine .lNoend L ovl s (raiseDec .noEnd (nextStream s.dec) s)

/-- The row of the line map that a finished line selects, run on it (44_decoder_frame.md R151, `Line(L, over)`). -/
def runLine (L : List Byte) (ovl : Bool) (s : State) : Out :=
  match lineKind s.dec.state L ovl with
  | some .lBegin => execLBegin L ovl s
  | some .lSkip => execLSkip L ovl s
  | some .lEmpty => execLEmpty s
  | some .lTerm => execLTerm L s
  | some .lBadlen => execLBadlen L s
  | some .lData => execLData L s
  | some .lShort => execLShort L s
  | some .lEnd => execLEnd s
  | some .lNoend => execLNoend L ovl s
  | none => turnAway .badState s

end Sys2Proof.Machine
end

