-- ==== Sys2Proof/Machine/Decoder.lean ====
section
/-! DEFINITION. The commands of DEC (44_decoder_frame.md; acceptance table R178). -/

namespace Sys2Proof.Machine

/-- The registers as `D.START m` leaves them (R150): every decoder register is re-initialised (10_state.md R31), `D_MODE`
among them (log entry 10), then `D_MULTI` and `D_STATE` open the session. -/
def startSession (multi : Bool) (s : State) : State :=
  s.setDec { Dec.reset.startFlags multi with state := .dSeek }

/-- `D.START m` (R150): accepted in `D_IDLE` and `D_HALT`. -/
def execDStart (multi : Bool) (s : State) : Out :=
  match s.dec.state with
  | .dIdle => done (startSession multi s)
  | .dSeek => turnAway .badState s
  | .dWait => turnAway .badState s
  | .dData => turnAway .badState s
  | .dEnd => turnAway .badState s
  | .dHalt => done (startSession multi s)

/-- The line assembler (R151): a character is stored; a newline clears the assembler and runs the finished line. -/
def takeChar (c : Byte) (s : State) : Out :=
  if c ≠ Config.newline then done (assemble c s)
  else runLine s.dec.lbuf s.dec.ovl (clearLine s)

/-- `D.CHAR c` (R151, R152, R153). -/
def execDChar (c : Byte) (s : State) : Out :=
  match s.dec.state with
  | .dIdle => turnAway .badState s
  | .dSeek => takeChar c s
  | .dWait => turnAway .badState s
  | .dData => takeChar c s
  | .dEnd => takeChar c s
  | .dHalt => done s

/-- `D.EOF` (R172 to R175, R153): an unfinished last line is dropped first. -/
def execDEof (s : State) : Out :=
  match s.dec.state with
  | .dIdle => turnAway .badState s
  | .dSeek =>
    if s.dec.seen then done (goDec .dHalt (clearLine s))
    else done (raiseDec .noBegin .dHalt (clearLine s))
  | .dWait => turnAway .badState s
  | .dData => done (raiseDec .shortFile .dHalt (clearLine s))
  | .dEnd => done (raiseDec .noEnd .dHalt (clearLine s))
  | .dHalt => done s

/-- A command that is accepted in `D_WAIT` only (R160, R178), with its effect. -/
def inWait (s : State) (eff : State) : Out :=
  match s.dec.state with
  | .dIdle => turnAway .badState s
  | .dSeek => turnAway .badState s
  | .dWait => done eff
  | .dData => turnAway .badState s
  | .dEnd => turnAway .badState s
  | .dHalt => turnAway .badState s

/-- `D.TGT.OK` (R161): `D_STATE <- D_DATA`. -/
def execDTgtOk (s : State) : Out := inWait s (goDec .dData s)

/-- `D.TGT.IOFAIL` (R162): `raise TargetIO(5) to Next()`. -/
def execDTgtIofail (s : State) : Out := inWait s (raiseDec .targetIo (nextStream s.dec) s)

/-- `D.TGT.RESFAIL` (R163): `raise Resolve(4) to Next()`. -/
def execDTgtResfail (s : State) : Out := inWait s (raiseDec .resolve (nextStream s.dec) s)

/-- `D.SINKFAIL` (R176): accepted in `D_DATA` and `D_END`; `raise SinkIO(6) to Next()`. -/
def execDSinkfail (s : State) : Out :=
  match s.dec.state with
  | .dIdle => turnAway .badState s
  | .dSeek => turnAway .badState s
  | .dWait => turnAway .badState s
  | .dData => done (raiseDec .sinkIo (nextStream s.dec) (clearLine s))
  | .dEnd => done (raiseDec .sinkIo (nextStream s.dec) (clearLine s))
  | .dHalt => turnAway .badState s

/-- `D.RDFAIL` (R177): `raise SourceIO(7) to D_HALT`, whatever `D_MULTI` is. -/
def execDRdfail (s : State) : Out :=
  match s.dec.state with
  | .dIdle => turnAway .badState s
  | .dSeek => done (raiseDec .sourceIo .dHalt (clearLine s))
  | .dWait => turnAway .badState s
  | .dData => done (raiseDec .sourceIo .dHalt (clearLine s))
  | .dEnd => done (raiseDec .sourceIo .dHalt (clearLine s))
  | .dHalt => done s

end Sys2Proof.Machine
end

