-- ==== Sys2Proof/Machine/Encoder.lean ====
section
/-! DEFINITION. The commands of ENC (43_encoder_frame.md; acceptance table R141). -/

namespace Sys2Proof.Machine

/-- `E.SETMODE m` (R130). -/
def execESetmode (m : Mode) (s : State) : Out :=
  match s.enc.state with
  | .eIdle => done (s.setEnc { s.enc with mode := m })
  | .eRun => turnAway .badState s
  | .eDone => turnAway .badState s
  | .eFail => turnAway .badState s

/-- `E.NAMECH c` (R131). -/
def execENamech (c : Byte) (s : State) : Out :=
  match s.enc.state with
  | .eIdle =>
    if s.enc.nlen < s.params.nameMax then done (s.setEnc { s.enc with name := s.enc.name ++ [c] })
    else turnAway .nameFull s
  | .eRun => turnAway .badState s
  | .eDone => turnAway .badState s
  | .eFail => turnAway .badState s

/-- `E.START` (R134): the whole header is emitted by this one command. -/
def execEStart (s : State) : Out :=
  match s.enc.state with
  | .eIdle =>
    if s.enc.nlen = 0 then turnAway .noName s
    else done ((s.setEnc { s.enc with chunk := [], state := .eRun }).eOutStr (headerLine s.enc.mode s.enc.name))
  | .eRun => turnAway .badState s
  | .eDone => turnAway .badState s
  | .eFail => turnAway .badState s

/-- The effect of `E.BYTE b` (R135): the byte is stored, and the 45th of a chunk emits the line and clears the count. -/
def storeByte (b : Byte) (s : State) : State :=
  if s.enc.cnt + 1 = Config.lineBytes then
    emitChunk (s.enc.chunk ++ [b]) (s.setEnc { s.enc with chunk := [] })
  else s.setEnc { s.enc with chunk := s.enc.chunk ++ [b] }

/-- `E.BYTE b` (R135). -/
def execEByte (b : Byte) (s : State) : Out :=
  match s.enc.state with
  | .eIdle => turnAway .badState s
  | .eRun => done (storeByte b s)
  | .eDone => turnAway .badState s
  | .eFail => turnAway .badState s

/-- The line of the partial chunk, if there is one (R137). -/
def flushChunk (s : State) : State := if 0 < s.enc.cnt then emitChunk s.enc.chunk s else s

/-- The effect of `E.EOF` (R137): partial line, terminator line, trailer line. -/
def finishStream (s : State) : State :=
  ((flushChunk s).eOutStr (termLine ++ trailerLine)).setEnc { s.enc with chunk := [], state := .eDone }

/-- `E.EOF` (R137). -/
def execEEof (s : State) : Out :=
  match s.enc.state with
  | .eIdle => turnAway .badState s
  | .eRun => done (finishStream s)
  | .eDone => turnAway .badState s
  | .eFail => turnAway .badState s

/-- `E.SINKFAIL` (R139): accepted in `E_RUN` and `E_DONE`. -/
def execESinkfail (s : State) : Out :=
  match s.enc.state with
  | .eIdle => turnAway .badState s
  | .eRun => done (raiseEnc .sinkIo s)
  | .eDone => done (raiseEnc .sinkIo s)
  | .eFail => turnAway .badState s

/-- `E.RDFAIL` (R140): accepted in `E_RUN`. -/
def execERdfail (s : State) : Out :=
  match s.enc.state with
  | .eIdle => turnAway .badState s
  | .eRun => done (raiseEnc .sourceIo s)
  | .eDone => turnAway .badState s
  | .eFail => turnAway .badState s

end Sys2Proof.Machine
end

