-- ==== Sys2Proof/Machine/Functions.lean ====
section
/-! DEFINITION. The unit functions run as instructions of their own (format FN): the function is applied to its operands
and its outputs stand on the function output; no register and no sink changes, for they are combinational
(40_char6.md, 41_pack34.md, 42_linelen.md; log entry 5). The frame logic applies the same functions
(`Machine/Operands.lean`). -/

namespace Sys2Proof.Machine

/-- A unit function answered `r`. -/
def answer (r : FnResult) (s : State) : Out := done (s.setFnOut r)

/-- The outputs of `PACK3`, `PACK2`, `PACK1`. -/
def Quad.result (q : Quad) : FnResult := .quad q.s0 q.s1 q.s2 q.s3

/-- `ENC6` (40_char6.md R90). -/
def execEnc6 (v : Sextet) (s : State) : Out := answer (.char (enc6 v)) s

/-- `DEC6` (40_char6.md R91). -/
def execDec6 (c : Byte) (s : State) : Out := answer (.sextet (dec6 c)) s

/-- `PACK3` (41_pack34.md R100). -/
def execPack3 (b0 b1 b2 : Byte) (s : State) : Out := answer (pack3 b0 b1 b2).result s

/-- `PACK2` (41_pack34.md R101). -/
def execPack2 (b0 b1 : Byte) (s : State) : Out := answer (pack2 b0 b1).result s

/-- `PACK1` (41_pack34.md R102). -/
def execPack1 (b0 : Byte) (s : State) : Out := answer (pack1 b0).result s

/-- `UNPACK3` (41_pack34.md R103). -/
def execUnpack3 (c0 c1 c2 c3 : Sextet) (s : State) : Out :=
  let o := unpack3 c0 c1 c2 c3
  answer (.bytes [o.o0, o.o1, o.o2]) s

/-- `UNPACK2` (41_pack34.md R104). -/
def execUnpack2 (c0 c1 c2 : Sextet) (s : State) : Out :=
  let o := unpack2 c0 c1 c2
  answer (.bytes [o.1, o.2]) s

/-- `UNPACK1` (41_pack34.md R105). -/
def execUnpack1 (c0 c1 : Sextet) (s : State) : Out := answer (.bytes [unpack1 c0 c1]) s

/-- `LENENC` (42_linelen.md R120). -/
def execLenenc (n : Sextet) (s : State) : Out := answer (.char (lenenc n)) s

/-- `LENDEC` (42_linelen.md R121). -/
def execLendec (c : Byte) (s : State) : Out := answer (.counted (lendec c).1 (lendec c).2) s

/-- `LENNEED` (42_linelen.md R122). -/
def execLenneed (n : Sextet) (s : State) : Out := answer (.count (lenneed n)) s

/-- `LENCHARS` (42_linelen.md R125). -/
def execLenchars (n : Sextet) (s : State) : Out := answer (.count (lenchars n)) s

end Sys2Proof.Machine
end

