-- ==== Sys2Proof/Machine/Reset.lean ====
section
/-! DEFINITION. The reset commands (70_reset_and_hazards.md R221): accepted in every state, nothing emitted. -/

namespace Sys2Proof.Machine

/-- Every ENC register takes its value of 10_state.md R29. -/
def resetEnc (s : State) : State := s.setEnc Enc.reset

/-- Every DEC register takes its value of 10_state.md R29. -/
def resetDec (s : State) : State := s.setDec Dec.reset

/-- `RESET.E` (R221). -/
def execResetE (s : State) : Out := done (resetEnc s)

/-- `RESET.D` (R221). -/
def execResetD (s : State) : Out := done (resetDec s)

/-- `RESET.ALL` (R221). -/
def execResetAll (s : State) : Out := done (resetDec (resetEnc s))

/-- A reserved command word (30_encoding.md R79): refused with reason `BadCommand`. -/
def execReserved (_w : Word) (s : State) : Out := turnAway .badCommand s

end Sys2Proof.Machine
end

