-- ==== Sys2Proof/Machine/Dispatch.lean ====
section
/-! DEFINITION. What each instruction does: one arm per row of spec/opcode_table.json. -/

namespace Sys2Proof.Machine

def exec (i : Instr) (s : State) : Host.Outcome State Fault Refusal :=
  match i with
  | .resetE => Sys2Proof.Machine.execResetE s
  | .resetD => Sys2Proof.Machine.execResetD s
  | .resetAll => Sys2Proof.Machine.execResetAll s
  | .eSetmode m => Sys2Proof.Machine.execESetmode m s
  | .eNamech c => Sys2Proof.Machine.execENamech c s
  | .eStart => Sys2Proof.Machine.execEStart s
  | .eByte b => Sys2Proof.Machine.execEByte b s
  | .eEof => Sys2Proof.Machine.execEEof s
  | .eSinkfail => Sys2Proof.Machine.execESinkfail s
  | .dStart multi => Sys2Proof.Machine.execDStart multi s
  | .dChar c => Sys2Proof.Machine.execDChar c s
  | .dEof => Sys2Proof.Machine.execDEof s
  | .dTgtOk => Sys2Proof.Machine.execDTgtOk s
  | .dTgtIofail => Sys2Proof.Machine.execDTgtIofail s
  | .dTgtResfail => Sys2Proof.Machine.execDTgtResfail s
  | .dSinkfail => Sys2Proof.Machine.execDSinkfail s
  | .dRdfail => Sys2Proof.Machine.execDRdfail s
  | .eRdfail => Sys2Proof.Machine.execERdfail s
  | .reserved w => Sys2Proof.Machine.execReserved w s
  | .lBegin L ovl => Sys2Proof.Machine.execLBegin L ovl s
  | .lSkip L ovl => Sys2Proof.Machine.execLSkip L ovl s
  | .lEmpty => Sys2Proof.Machine.execLEmpty s
  | .lTerm L => Sys2Proof.Machine.execLTerm L s
  | .lBadlen L => Sys2Proof.Machine.execLBadlen L s
  | .lData L => Sys2Proof.Machine.execLData L s
  | .lShort L => Sys2Proof.Machine.execLShort L s
  | .lEnd => Sys2Proof.Machine.execLEnd s
  | .lNoend L ovl => Sys2Proof.Machine.execLNoend L ovl s
  | .enc6 v => Sys2Proof.Machine.execEnc6 v s
  | .dec6 c => Sys2Proof.Machine.execDec6 c s
  | .pack3 b0 b1 b2 => Sys2Proof.Machine.execPack3 b0 b1 b2 s
  | .pack2 b0 b1 => Sys2Proof.Machine.execPack2 b0 b1 s
  | .pack1 b0 => Sys2Proof.Machine.execPack1 b0 s
  | .unpack3 c0 c1 c2 c3 => Sys2Proof.Machine.execUnpack3 c0 c1 c2 c3 s
  | .unpack2 c0 c1 c2 => Sys2Proof.Machine.execUnpack2 c0 c1 c2 s
  | .unpack1 c0 c1 => Sys2Proof.Machine.execUnpack1 c0 c1 s
  | .lenenc n => Sys2Proof.Machine.execLenenc n s
  | .lendec c => Sys2Proof.Machine.execLendec c s
  | .lenneed n => Sys2Proof.Machine.execLenneed n s
  | .lenchars n => Sys2Proof.Machine.execLenchars n s

end Sys2Proof.Machine
end

