-- ==== Sys2Proof/Machine/Fetch.lean ====
section
/-! DEFINITION. Where the next instruction comes from. The block has no program counter and fetches nothing
(10_state.md R11): the host presents one command word at a time (00_scope.md R7), and the words it has yet to present
are `Link.port`. -/

namespace Sys2Proof.Machine

/-- The next command word, and the state with that word taken from the port; `none` when the host sends nothing. -/
def fetch (s : State) : Option (Word × State) :=
  match s.link.port with
  | [] => none
  | w :: rest => some (w, s.setPort rest)

/-- Command word `w` is the next one the host presents. -/
def present (w : Word) (s : State) : State := s.setPort (w :: s.link.port)

/-- The word of `D.CHAR 0x0A`, whose newline makes the decoder take the assembled line (44_decoder_frame.md R151). -/
def newlineWord : Word := 0x900A

/-- The parser is in state `st` with line `L` assembled and its newline the next character to come. -/
def presentLine (st : DState) (L : List Byte) (ovl : Bool) (s : State) : State :=
  present newlineWord (s.setDec { s.dec with state := st, lbuf := L, ovl := ovl })

/-- An encoded instruction placed where the very next step runs it (log entry 6): a command word at the port; a line
in the line assembler, its newline at the port. A unit function has no command and is placed nowhere. -/
def place (e : Encoding) (s : State) : State :=
  match e with
  | .word w => present w s
  | .line st L ovl => presentLine st L ovl s
  | .call _ _ => s

end Sys2Proof.Machine
end

