-- ==== Sys2Proof/Machine/Step.lean ====
section
/-! DEFINITION. One step: one host command, performed or refused whole (00_scope.md R7, 20_memory.md R49). -/

namespace Sys2Proof.Machine

/-- One step. A unit whose host sends nothing does nothing (R7). -/
def step (s : State) : Host.Outcome State Fault Refusal :=
  match fetch s with
  | none => .next s
  | some (w, s') => exec (decodeWord w) s'

/-- `s` with the instruction of an opcode-table row's bits where the next step takes its instruction. -/
def State.withFetchWord (s : State) (nbits w : Nat) : State :=
  match tableEncoding nbits w with
  | some e => place e s
  | none => s

end Sys2Proof.Machine
end

