-- ==== Sys2Proof/Safety.lean ====
section
/-! DEFINITION. What the claims speak of: the invariant of the state (10_state.md R30), running a list of
instructions in the host's order (20_memory.md R51), and the streams and sessions of the two units (00_scope.md R9,
43_encoder_frame.md R142, 44_decoder_frame.md R160). -/

namespace Sys2Proof.Machine

/-- The bounds and implications R30 gives the ENC registers, with the ranges of R14. -/
def Enc.ok (p : Params) (e : Enc) : Bool :=
  decide (e.cnt ≤ 44) && decide (e.nlen ≤ p.nameMax) &&
    (match e.state with
    | .eIdle => decide (e.cnt = 0) && decide (e.err = .ok)
    | .eRun => decide (1 ≤ e.nlen) && decide (e.err = .ok)
    | .eDone => decide (e.cnt = 0) && decide (1 ≤ e.nlen) && decide (e.err = .ok)
    | .eFail => decide (1 ≤ e.nlen) && !decide (e.err = .ok))

/-- The line assembler is within `LINE_MAX`, and `D_OVER` is 0 when `LINE_MAX` is unbounded (R25). -/
def lineOk (p : Params) (lbuf : List Byte) (ovl : Bool) : Bool :=
  match p.lineMax with
  | none => !ovl
  | some m => decide (lbuf.length ≤ m)

/-- The line assembler is empty: `D_LLEN` = 0 and `D_OVER` = 0. -/
def Dec.lineClear (d : Dec) : Bool := decide (d.llen = 0) && !d.ovl

/-- The bounds and implications R30 gives the DEC registers, with the ranges of R24 and R25. -/
def Dec.ok (p : Params) (d : Dec) : Bool :=
  decide (d.nlen ≤ p.nameMax) && lineOk p d.lbuf d.ovl && (d.anyFail == !decide (d.err = .ok)) &&
    (match d.state with
    | .dIdle => d.lineClear
    | .dSeek => true
    | .dWait => d.lineClear && d.seen
    | .dData => d.seen
    | .dEnd => d.seen
    | .dHalt => d.lineClear)

/-- The invariant of the machine: the parameters meet their constraints (00_scope.md R6) and both units meet R30. -/
def State.ok (s : State) : Bool := s.params.ok && s.enc.ok s.params && s.dec.ok s.params

/-- The invariant as a proposition. -/
abbrev State.Inv (s : State) : Prop := s.ok = true

/-- The state a performed command leaves (00_scope.md R7): the registers of both units, the characters `cs` appended to
the ENC sink, the symbols `ys` appended to the DEC sink; the commands to come, the function output and the parameters
are as before. -/
def State.performedWith (s : State) (e : Enc) (d : Dec) (cs : List Byte) (ys : List DSym) : State :=
  { enc := e, dec := d, params := s.params,
    link := { s.link with ack := .performed, eSink := s.link.eSink ++ cs, dSink := s.link.dSink ++ ys } }

/-- The state a refused command leaves (60_exceptions.md R205): nothing changes but the host's answer. -/
def State.refusedWith (s : State) (r : Reason) : State :=
  { s with link := { s.link with ack := .refused r } }

/-- The DEC registers after fault entry with `code` to state `st` (60_exceptions.md R200). -/
def Dec.faulted (d : Dec) (code : FaultCode) (st : DState) : Dec :=
  { d with err := code, anyFail := true, state := st }

/-- The DEC registers with the line assembler cleared (44_decoder_frame.md R151, R175). -/
def Dec.cleared (d : Dec) : Dec := { d with lbuf := [], ovl := false }

/-- The characters of a line the assembler keeps, and whether it was overlong (44_decoder_frame.md R151). -/
def keptLine (p : Params) (L : List Byte) : List Byte × Bool :=
  match p.lineMax with
  | none => (L, false)
  | some m => (L.take m, decide (m < L.length))

/-- A list of instructions run in order, one step each, up to the first stop. -/
def runAll (is : List Instr) (s : State) : Out :=
  match is with
  | [] => .next s
  | i :: rest =>
    match exec i s with
    | .next t => runAll rest t
    | .fault r => .fault r
    | .refused r => .refused r

/-- The data lines of a source, 45 bytes a line and then the rest (43_encoder_frame.md R142). -/
def dataLines (B : List Byte) : List Byte :=
  (List.range (B.length / 45)).flatMap (fun k => dataLine ((B.drop (45 * k)).take 45)) ++
    if B.length % 45 = 0 then [] else dataLine (B.drop (45 * (B.length / 45)))

/-- What follows the header in the EncodedStream of `B` (R142). -/
def streamBody (B : List Byte) : List Byte := dataLines B ++ termLine ++ trailerLine

/-- The commands of an encoder session for mode `m`, name `N` and source `B` (R142). -/
def encodeSession (m : Mode) (N B : List Byte) : List Instr :=
  [.eSetmode m] ++ N.map .eNamech ++ [.eStart] ++ B.map .eByte ++ [.eEof]

/-- The commands that feed one stream to DEC, the host answering the header with `answer` (44_decoder_frame.md R160). -/
def feedStream (answer : Instr) (header body : List Byte) : List Instr :=
  header.map .dChar ++ [answer] ++ body.map .dChar

/-- The commands of a decoder session in which the host answers the header with `D.TGT.OK` (00_scope.md R9). -/
def decodeSession (multi : Bool) (header body : List Byte) : List Instr :=
  [.dStart multi] ++ feedStream .dTgtOk header body ++ [.dEof]

/-- The name precondition of the round trip (43_encoder_frame.md R133): at least one byte, none of them whitespace,
at most `NAME_MAX` bytes, and the header line within `LINE_MAX` where that is finite. -/
def nameOk (p : Params) (m : Mode) (N : List Byte) : Bool :=
  decide (1 ≤ N.length) && N.all (fun x => !isSpace x) && decide (N.length ≤ p.nameMax) &&
    match p.lineMax with
    | none => true
    | some k => decide (6 + (octal m).length + 1 + N.length ≤ k)

end Sys2Proof.Machine

namespace Sys2Proof

/-- Whether an instruction is a command addressed to ENC alone, so that DEC has no part in it (20_memory.md R52). -/
def Instr.forEnc (i : Instr) : Bool :=
  match i with
  | .resetE | .eSetmode _ | .eNamech _ | .eStart | .eByte _ | .eEof | .eSinkfail | .eRdfail => true
  | .resetD | .resetAll | .dStart _ | .dChar _ | .dEof | .dTgtOk | .dTgtIofail | .dTgtResfail | .dSinkfail
  | .dRdfail | .reserved _ | .lBegin _ _ | .lSkip _ _ | .lEmpty | .lTerm _ | .lBadlen _ | .lData _ | .lShort _
  | .lEnd | .lNoend _ _ | .enc6 _ | .dec6 _ | .pack3 _ _ _ | .pack2 _ _ | .pack1 _ | .unpack3 _ _ _ _
  | .unpack2 _ _ _ | .unpack1 _ _ | .lenenc _ | .lendec _ | .lenneed _ | .lenchars _ => false

/-- Whether an instruction is a command addressed to DEC alone, or a line kind of its parser (R52). -/
def Instr.forDec (i : Instr) : Bool :=
  match i with
  | .resetD | .dStart _ | .dChar _ | .dEof | .dTgtOk | .dTgtIofail | .dTgtResfail | .dSinkfail | .dRdfail
  | .lBegin _ _ | .lSkip _ _ | .lEmpty | .lTerm _ | .lBadlen _ | .lData _ | .lShort _ | .lEnd | .lNoend _ _ => true
  | .resetE | .resetAll | .eSetmode _ | .eNamech _ | .eStart | .eByte _ | .eEof | .eSinkfail | .eRdfail
  | .reserved _ | .enc6 _ | .dec6 _ | .pack3 _ _ _ | .pack2 _ _ | .pack1 _ | .unpack3 _ _ _ _
  | .unpack2 _ _ _ | .unpack1 _ _ | .lenenc _ | .lendec _ | .lenneed _ | .lenchars _ => false

end Sys2Proof
end

