-- ==== Sys2Proof/Certificates/Slice0/Obligations.lean ====
section
/-! DEFINITION. The statements for the provers. Each docstring names the rule of spec/ it formalises. Where a statement
gives the state an instruction leaves, it gives ALL of it (`State.performedWith`, `State.refusedWith`), so its frame is
in the equation. The outcome of a command, performed or refused(reason) (60_exceptions.md R205), stands in `Link.ack`
of that state (log entry 7). -/

open Sys2Proof Sys2Proof.Machine

/-! ## Reset -/

/-- 70_reset_and_hazards.md R221 with the values of 10_state.md R29: the reset commands are performed in every state of
the machine, put the addressed unit in its reset state, leave the other unit, both sinks and the commands to come
alone, and `RESET.ALL` is `RESET.E` and `RESET.D` in either order. Nothing is said of `D_MODE`, whose value at reset is
the model's (log entry 1). -/
def Obligations.ResetCommandsRestoreReset : Prop :=
  ∀ s : State,
    (∃ d : Dec, d.state = .dIdle ∧ d.multi = false ∧ d.seen = false ∧ d.anyFail = false ∧ d.err = .ok ∧ d.nlen = 0 ∧
      d.llen = 0 ∧ d.ovl = false ∧
      exec .resetE s =
        .next (s.performedWith { state := .eIdle, mode := 0, name := [], chunk := [], err := .ok } s.dec [] []) ∧
      exec .resetD s = .next (s.performedWith s.enc d [] []) ∧
      exec .resetAll s =
        .next (s.performedWith { state := .eIdle, mode := 0, name := [], chunk := [], err := .ok } d [] [])) ∧
    runAll [.resetE, .resetD] s = exec .resetAll s ∧
    runAll [.resetD, .resetE] s = exec .resetAll s

/-- 10_state.md R29, 70_reset_and_hazards.md R220: what power-on reset leaves, on any platform, and that `State.reset` is
one of them. Nothing is said of `D_MODE`, which holds no value then. -/
def Obligations.PowerOnLeavesBothUnitsIdle : Prop :=
  ∀ p : Params,
    let s := State.resetOn p
    s.enc.state = .eIdle ∧ s.enc.mode = 0 ∧ s.enc.nlen = 0 ∧ s.enc.cnt = 0 ∧ s.enc.err = .ok ∧
    s.dec.state = .dIdle ∧ s.dec.multi = false ∧ s.dec.seen = false ∧ s.dec.anyFail = false ∧ s.dec.err = .ok ∧
    s.dec.nlen = 0 ∧ s.dec.llen = 0 ∧ s.dec.ovl = false ∧
    s.link.eSink = [] ∧ s.link.dSink = [] ∧ s.params = p ∧
    ∃ q : Params, q.ok = true ∧ State.reset = State.resetOn q

/-! ## ENC -/

/-- 43_encoder_frame.md R130: `E.SETMODE m` loads `E_MODE` in `E_IDLE` and is refused elsewhere. -/
def Obligations.SetModeLoadsMode : Prop :=
  ∀ (m : Mode) (s : State),
    exec (.eSetmode m) s =
      if s.enc.state = .eIdle then .next (s.performedWith { s.enc with mode := m } s.dec [] [])
      else .next (s.refusedWith .badState)

/-- 43_encoder_frame.md R131: `E.NAMECH c` appends a byte, is refused `NameFull` when there is no room, `BadState`
outside `E_IDLE`. -/
def Obligations.NameCharAppendsUntilFull : Prop :=
  ∀ (c : Byte) (s : State),
    exec (.eNamech c) s =
      if s.enc.state ≠ .eIdle then .next (s.refusedWith .badState)
      else if s.enc.nlen < s.params.nameMax then
        .next (s.performedWith { s.enc with name := s.enc.name ++ [c] } s.dec [] [])
      else .next (s.refusedWith .nameFull)

/-- 43_encoder_frame.md R134: `E.START` emits the header whole and starts, is refused `NoName` without a name,
`BadState` outside `E_IDLE`. -/
def Obligations.StartEmitsWholeHeader : Prop :=
  ∀ s : State,
    exec .eStart s =
      if s.enc.state ≠ .eIdle then .next (s.refusedWith .badState)
      else if s.enc.nlen = 0 then .next (s.refusedWith .noName)
      else .next (s.performedWith { s.enc with chunk := [], state := .eRun } s.dec
        ([0x62, 0x65, 0x67, 0x69, 0x6E, 0x20] ++ octal s.enc.mode ++ [0x20] ++ s.enc.name ++ [0x0A]) [])

/-- 43_encoder_frame.md R132: `octal(m)` is the octal numeral of `m`, shortest, in digits 0x30 to 0x37. -/
def Obligations.OctalIsTheShortestNumeral : Prop :=
  ∀ m : Mode,
    (octal m).foldl (fun a d => 8 * a + (d.toNat - 0x30)) 0 = m.toNat ∧
    (∀ d ∈ octal m, 0x30 ≤ d.toNat ∧ d.toNat ≤ 0x37) ∧
    (octal m).length = if m.toNat < 8 then 1 else if m.toNat < 64 then 2 else 3

/-- 43_encoder_frame.md R135: `E.BYTE b` stores the byte; the 45th of a chunk emits the line and clears the count;
outside `E_RUN` it is refused. -/
def Obligations.ByteEmitsLineAtFortyFifth : Prop :=
  ∀ (b : Byte) (s : State),
    exec (.eByte b) s =
      if s.enc.state ≠ .eRun then .next (s.refusedWith .badState)
      else if s.enc.cnt + 1 = 45 then
        .next (s.performedWith { s.enc with chunk := [] } s.dec (dataLine (s.enc.chunk ++ [b])) [])
      else .next (s.performedWith { s.enc with chunk := s.enc.chunk ++ [b] } s.dec [] [])

/-- 43_encoder_frame.md R136: the data line of a chunk of `n` bytes is the length character, then for each group `g` the
four characters of `PACK3` of bytes 3g, 3g + 1, 3g + 2 with the constant 0x00 for a missing one, then the newline. -/
def Obligations.DataLineIsTheIndexedLoop : Prop :=
  ∀ chunk : List Byte, 1 ≤ chunk.length → chunk.length ≤ 45 →
    dataLine chunk =
      [lenenc (BitVec.ofNat 6 chunk.length)] ++
      (List.range ((chunk.length + 2) / 3)).flatMap (fun g =>
        let q := pack3 (chunk.getD (3 * g) 0) (chunk.getD (3 * g + 1) 0) (chunk.getD (3 * g + 2) 0)
        [enc6 q.s0, enc6 q.s1, enc6 q.s2, enc6 q.s3]) ++
      [0x0A]

/-- 30_encoding.md R62, R65, R68 and 42_linelen.md R125: the line of `n` bytes has 1 + `LENCHARS(n)` + 1 characters, ends
in its only newline, and every other character is in 0x21 to 0x60. -/
def Obligations.DataLineShape : Prop :=
  ∀ chunk : List Byte, 1 ≤ chunk.length → chunk.length ≤ 45 →
    ∃ text : List Byte, dataLine chunk = text ++ [0x0A] ∧
      text.length = 1 + 4 * ((chunk.length + 2) / 3) ∧
      (∀ c ∈ text, 0x21 ≤ c.toNat ∧ c.toNat ≤ 0x60) ∧
      text.head? = some (BitVec.ofNat 8 (chunk.length + 0x20))

/-- 43_encoder_frame.md R137: `E.EOF` emits the partial line if there is one, the terminator and the trailer. -/
def Obligations.EofFinishesTheStream : Prop :=
  ∀ s : State,
    exec .eEof s =
      if s.enc.state ≠ .eRun then .next (s.refusedWith .badState)
      else .next (s.performedWith { s.enc with chunk := [], state := .eDone } s.dec
        ((if 0 < s.enc.cnt then dataLine s.enc.chunk else []) ++ [0x60, 0x0A, 0x65, 0x6E, 0x64, 0x0A]) [])

/-- 43_encoder_frame.md R139, R140 with the fault entry of 60_exceptions.md R201: the transport failures of ENC latch
code 6 or 7 and go to `E_FAIL`, emitting nothing. -/
def Obligations.EncoderFailuresLatchTheCode : Prop :=
  ∀ s : State,
    exec .eSinkfail s =
      (if s.enc.state = .eRun ∨ s.enc.state = .eDone then
        .next (s.performedWith { s.enc with err := .sinkIo, state := .eFail } s.dec [] [])
      else .next (s.refusedWith .badState)) ∧
    exec .eRdfail s =
      (if s.enc.state = .eRun then
        .next (s.performedWith { s.enc with err := .sourceIo, state := .eFail } s.dec [] [])
      else .next (s.refusedWith .badState))

/-! ## DEC commands -/

/-- 44_decoder_frame.md R150: `D.START m` clears everything the last session left and seeks a header; refused in
mid-session. `D_MODE` too is the same after it whatever the session before was; the statement leaves open which value
that is (log entries 1 and 10). -/
def Obligations.StartOpensASession : Prop :=
  ∃ held : Mode, ∀ (m : Bool) (s : State),
    exec (.dStart m) s =
      if s.dec.state = .dIdle ∨ s.dec.state = .dHalt then
        .next (s.performedWith s.enc
          { state := .dSeek, multi := m, seen := false, anyFail := false, err := .ok, mode := held, name := [],
            lbuf := [], ovl := false } [] [])
      else .next (s.refusedWith .badState)

/-- 44_decoder_frame.md R151, first branch: a character other than a newline is stored while there is room, and sets
`D_OVER` when there is none. -/
def Obligations.CharEntersTheLineBuffer : Prop :=
  ∀ (c : Byte) (s : State), c ≠ 0x0A →
    (s.dec.state = .dSeek ∨ s.dec.state = .dData ∨ s.dec.state = .dEnd) →
    ((s.params.lineMax = none ∨ ∃ k, s.params.lineMax = some k ∧ s.dec.llen < k) →
      exec (.dChar c) s = .next (s.performedWith s.enc { s.dec with lbuf := s.dec.lbuf ++ [c] } [] [])) ∧
    (∀ k, s.params.lineMax = some k → k ≤ s.dec.llen →
      exec (.dChar c) s = .next (s.performedWith s.enc { s.dec with ovl := true } [] []))

/-- 44_decoder_frame.md R151, second branch: a newline clears the assembler and runs the line kind the line decoder gives
for the parser state, as the instruction of that line. -/
def Obligations.NewlineRunsTheDecodedLine : Prop :=
  ∀ (s : State) (i : Instr),
    decodeLine s.dec.state s.dec.lbuf s.dec.ovl = .ok i →
    exec (.dChar 0x0A) s = exec i { s with dec := s.dec.cleared }

/-- 44_decoder_frame.md R152, R153: `D.CHAR` is refused in `D_IDLE` and `D_WAIT`; `D.CHAR` and `D.EOF` in `D_HALT` do
nothing. -/
def Obligations.CharOutsideASession : Prop :=
  ∀ (c : Byte) (s : State),
    (s.dec.state = .dIdle ∨ s.dec.state = .dWait → exec (.dChar c) s = .next (s.refusedWith .badState)) ∧
    (s.dec.state = .dHalt →
      exec (.dChar c) s = .next (s.performedWith s.enc s.dec [] []) ∧
      exec .dEof s = .next (s.performedWith s.enc s.dec [] []))

/-- 44_decoder_frame.md R151: a whole line given character by character and its newline is the line kind that the line
map gives for the characters the assembler keeps. -/
def Obligations.LineByCharactersIsOneLine : Prop :=
  ∀ (L : List Byte) (s : State) (i : Instr),
    0x0A ∉ L → s.dec.lbuf = [] → s.dec.ovl = false →
    decodeLine s.dec.state (keptLine s.params L).1 (keptLine s.params L).2 = .ok i →
    runAll (L.map Instr.dChar ++ [.dChar 0x0A]) s = exec i s

/-- 44_decoder_frame.md R161, R162, R163 with the fault entry of 60_exceptions.md R200: the host's three answers in
`D_WAIT`; each is refused elsewhere. -/
def Obligations.HostAnswersTheHeader : Prop :=
  ∀ s : State,
    (s.dec.state = .dWait →
      exec .dTgtOk s = .next (s.performedWith s.enc { s.dec with state := .dData } [] []) ∧
      exec .dTgtIofail s = .next (s.performedWith s.enc
        (s.dec.faulted .targetIo (if s.dec.multi then .dSeek else .dHalt)) [] [.endCode .targetIo]) ∧
      exec .dTgtResfail s = .next (s.performedWith s.enc
        (s.dec.faulted .resolve (if s.dec.multi then .dSeek else .dHalt)) [] [.endCode .resolve])) ∧
    (s.dec.state ≠ .dWait →
      exec .dTgtOk s = .next (s.refusedWith .badState) ∧
      exec .dTgtIofail s = .next (s.refusedWith .badState) ∧
      exec .dTgtResfail s = .next (s.refusedWith .badState))

/-- 44_decoder_frame.md R172 to R175: `D.EOF` drops the unfinished line and ends the session: NO_BEGIN or a normal end in
`D_SEEK`, SHORT_FILE in `D_DATA`, NO_END in `D_END`; refused in `D_IDLE` and `D_WAIT`. -/
def Obligations.EndOfInputEndsTheSession : Prop :=
  ∀ s : State,
    exec .dEof s =
      match s.dec.state with
      | .dSeek =>
        if s.dec.seen then .next (s.performedWith s.enc { s.dec.cleared with state := .dHalt } [] [])
        else .next (s.performedWith s.enc (s.dec.cleared.faulted .noBegin .dHalt) [] [.endCode .noBegin])
      | .dData => .next (s.performedWith s.enc (s.dec.cleared.faulted .shortFile .dHalt) [] [.endCode .shortFile])
      | .dEnd => .next (s.performedWith s.enc (s.dec.cleared.faulted .noEnd .dHalt) [] [.endCode .noEnd])
      | .dHalt => .next (s.performedWith s.enc s.dec [] [])
      | .dIdle => .next (s.refusedWith .badState)
      | .dWait => .next (s.refusedWith .badState)

/-- 44_decoder_frame.md R176, R177: the transport failures of DEC, code 6 per stream and code 7 for the session. -/
def Obligations.DecoderTransportFailures : Prop :=
  ∀ s : State,
    exec .dSinkfail s =
      (if s.dec.state = .dData ∨ s.dec.state = .dEnd then
        .next (s.performedWith s.enc (s.dec.cleared.faulted .sinkIo (if s.dec.multi then .dSeek else .dHalt)) []
          [.endCode .sinkIo])
      else .next (s.refusedWith .badState)) ∧
    exec .dRdfail s =
      (if s.dec.state = .dSeek ∨ s.dec.state = .dData ∨ s.dec.state = .dEnd then
        .next (s.performedWith s.enc (s.dec.cleared.faulted .sourceIo .dHalt) [] [.endCode .sourceIo])
      else if s.dec.state = .dHalt then .next (s.performedWith s.enc s.dec [] [])
      else .next (s.refusedWith .badState))

/-! ## Line kinds -/

/-- 30_encoding.md R70: the line map. -/
def Obligations.LineMapRows : Prop :=
  ∀ (L : List Byte) (ovl : Bool),
    (lineKind .dSeek L ovl = some .lBegin ↔ 6 ≤ L.length ∧ L.take 6 = [0x62, 0x65, 0x67, 0x69, 0x6E, 0x20]) ∧
    (lineKind .dSeek L ovl = some .lSkip ↔ ¬ (6 ≤ L.length ∧ L.take 6 = [0x62, 0x65, 0x67, 0x69, 0x6E, 0x20])) ∧
    (lineKind .dData [] ovl = some .lEmpty) ∧
    (∀ (c : Byte) (cs : List Byte), L = c :: cs →
      (lineKind .dData L ovl = some .lTerm ↔ c &&& 0x3F = 0x20) ∧
      (lineKind .dData L ovl = some .lBadlen ↔ 46 ≤ (dec6 c).toNat) ∧
      (lineKind .dData L ovl = some .lData ↔
        1 ≤ (dec6 c).toNat ∧ (dec6 c).toNat ≤ 45 ∧ lenneed (dec6 c) ≤ cs.length) ∧
      (lineKind .dData L ovl = some .lShort ↔
        1 ≤ (dec6 c).toNat ∧ (dec6 c).toNat ≤ 45 ∧ cs.length < lenneed (dec6 c))) ∧
    (lineKind .dEnd L ovl = some .lEnd ↔ L = [0x65, 0x6E, 0x64] ∧ ovl = false) ∧
    (lineKind .dEnd L ovl = some .lNoend ↔ ¬ (L = [0x65, 0x6E, 0x64] ∧ ovl = false)) ∧
    (∀ st : DState, st = .dIdle ∨ st = .dWait ∨ st = .dHalt → lineKind st L ovl = none)

/-- 44_decoder_frame.md R154: `L.SKIP` changes nothing. -/
def Obligations.SkippedLineChangesNothing : Prop :=
  ∀ (L : List Byte) (ovl : Bool) (s : State),
    s.dec.state = .dSeek → ¬ (6 ≤ L.length ∧ L.take 6 = [0x62, 0x65, 0x67, 0x69, 0x6E, 0x20]) →
    exec (.lSkip L ovl) s = .next (s.performedWith s.enc s.dec [] [])

/-- 44_decoder_frame.md R155, R157, R158: `L.BEGIN` sets `D_SEEN`, and either delivers the header and waits, or raises
BAD_HEADER. -/
def Obligations.BeginLineParsesOrFaults : Prop :=
  ∀ (L : List Byte) (ovl : Bool) (s : State),
    s.dec.state = .dSeek → 6 ≤ L.length → L.take 6 = [0x62, 0x65, 0x67, 0x69, 0x6E, 0x20] →
    (∀ (M N : List Byte) (rest : List (List Byte)),
      ovl = false → tokens (L.drop 6) = M :: N :: rest → (∀ d ∈ M, 0x30 ≤ d.toNat ∧ d.toNat ≤ 0x37) →
      N.length ≤ s.params.nameMax →
      exec (.lBegin L ovl) s = .next (s.performedWith s.enc
        { s.dec with seen := true, mode := modeOf M, name := N, state := .dWait } [] [.hdr (modeOf M) N])) ∧
    ((ovl = true ∨ (tokens (L.drop 6)).length < 2 ∨
        ∃ (M N : List Byte) (rest : List (List Byte)), tokens (L.drop 6) = M :: N :: rest ∧
          ((∃ d ∈ M, d.toNat < 0x30 ∨ 0x37 < d.toNat) ∨ s.params.nameMax < N.length)) →
      exec (.lBegin L ovl) s = .next (s.performedWith s.enc
        ({ s.dec with seen := true }.faulted .badHeader (if s.dec.multi then .dSeek else .dHalt)) []
        [.endCode .badHeader]))

/-- 44_decoder_frame.md R156: `tokens(S)` is the list of the maximal runs of bytes that are not whitespace, in order:
`S` split at its whitespace bytes, the empty pieces dropped. -/
def Obligations.TokensAreTheMaximalRuns : Prop :=
  ∀ S : List Byte,
    tokens S = (S.splitOnP (fun x => decide (x ∈ ([0x09, 0x0A, 0x0B, 0x0C, 0x0D, 0x20] : List Byte)))).filter
      (fun t => decide (t ≠ []))

/-- 30_encoding.md R76: the mode operand is the value of the octal numeral modulo 512. -/
def Obligations.ModeIsTheNumeralModulo512 : Prop :=
  ∀ M : List Byte, (∀ d ∈ M, 0x30 ≤ d.toNat ∧ d.toNat ≤ 0x37) →
    (modeOf M).toNat = (M.foldl (fun a d => 8 * a + (d.toNat - 0x30)) 0) % 512

/-- 44_decoder_frame.md R165, R166, R167, R169: the lines of the data section that emit no byte: the terminator goes to
`D_END`, the others raise SHORT_LINE or BAD_LENGTH to `Next()`. -/
def Obligations.DataSectionEndsOrFaults : Prop :=
  ∀ s : State, s.dec.state = .dData →
    exec .lEmpty s = .next (s.performedWith s.enc
      (s.dec.faulted .shortLine (if s.dec.multi then .dSeek else .dHalt)) [] [.endCode .shortLine]) ∧
    ∀ (c : Byte) (cs : List Byte),
      ((dec6 c).toNat = 0 →
        exec (.lTerm (c :: cs)) s = .next (s.performedWith s.enc { s.dec with state := .dEnd } [] [])) ∧
      (46 ≤ (dec6 c).toNat →
        exec (.lBadlen (c :: cs)) s = .next (s.performedWith s.enc
          (s.dec.faulted .badLength (if s.dec.multi then .dSeek else .dHalt)) [] [.endCode .badLength])) ∧
      (1 ≤ (dec6 c).toNat → (dec6 c).toNat ≤ 45 → cs.length < lenneed (dec6 c) →
        exec (.lShort (c :: cs)) s = .next (s.performedWith s.enc
          (s.dec.faulted .shortLine (if s.dec.multi then .dSeek else .dHalt)) [] [.endCode .shortLine]))

/-- 44_decoder_frame.md R168: a data line with enough characters emits its bytes, exactly `n` of them, byte `j` being
byte `j mod 3` of the unpacked group `j / 3`; nothing else changes, `D_STATE` stays `D_DATA`. A character past the
end of the line reaches no byte (30_encoding.md R73), so any value may stand for it here. -/
def Obligations.DataLineEmitsItsBytes : Prop :=
  ∀ (c : Byte) (cs : List Byte) (s : State),
    s.dec.state = .dData → 1 ≤ (dec6 c).toNat → (dec6 c).toNat ≤ 45 → lenneed (dec6 c) ≤ cs.length →
    exec (.lData (c :: cs)) s =
      .next (s.performedWith s.enc s.dec [] ((List.range (dec6 c).toNat).map (fun j =>
        let g := 4 * (j / 3)
        let o := unpack3 (dec6 (cs.getD g 0)) (dec6 (cs.getD (g + 1) 0)) (dec6 (cs.getD (g + 2) 0))
          (dec6 (cs.getD (g + 3) 0))
        DSym.byte (if j % 3 = 0 then o.o0 else if j % 3 = 1 then o.o1 else o.o2))))

/-- 44_decoder_frame.md R170, R171: the trailer gives `END(0)` and `Next()`; any other line in `D_END` raises NO_END. -/
def Obligations.TrailerEndsOrFaults : Prop :=
  ∀ s : State, s.dec.state = .dEnd →
    exec .lEnd s = .next (s.performedWith s.enc
      { s.dec with state := if s.dec.multi then .dSeek else .dHalt } [] [.endCode .ok]) ∧
    ∀ (L : List Byte) (ovl : Bool), ¬ (L = [0x65, 0x6E, 0x64] ∧ ovl = false) →
      exec (.lNoend L ovl) s = .next (s.performedWith s.enc
        (s.dec.faulted .noEnd (if s.dec.multi then .dSeek else .dHalt)) [] [.endCode .noEnd])

/-- The MODEL's choice (log entry 8): a line instruction presented in a state in which the line map selects another kind
for that line, or none, is refused with nothing changed. 30_encoding.md R70 says that exactly one row applies; no
command of the host reaches this. -/
def Obligations.UnselectedLineIsRefused : Prop :=
  ∀ (i : Instr) (st : DState) (L : List Byte) (ovl : Bool) (s : State),
    i.WellFormed → encode i = .line st L ovl → lineKind s.dec.state L ovl ≠ lineKind st L ovl →
    exec i s = .next (s.refusedWith .badState)

/-! ## Unit functions -/

/-- 40_char6.md R90, R91: `ENC6` and `DEC6` by their arithmetic, run as instructions (the function output is the model's
own, log entry 5). -/
def Obligations.CharacterFunctionsAnswer : Prop :=
  ∀ (v : Sextet) (c : Byte) (s : State),
    (∃ r : Byte, r.toNat = (if v = 0 then 0x60 else v.toNat + 0x20) ∧
      exec (.enc6 v) s = .next { s with link := { s.link with ack := .performed, fnOut := some (.char r) } }) ∧
    (∃ r : Sextet, r.toNat = ((c.toNat + 256 - 0x20) % 256) % 64 ∧
      exec (.dec6 c) s = .next { s with link := { s.link with ack := .performed, fnOut := some (.sextet r) } })

/-- 40_char6.md R90, R91, R93, R94, R95: the two character functions by their arithmetic and by their gate-level forms;
`DEC6` undoes `ENC6`, has period 64, takes exactly the four characters congruent to `v + 32` modulo 64 to `v`, and
`ENC6` undoes it exactly on 0x21 to 0x60. -/
def Obligations.CharacterMapLaws : Prop :=
  (∀ v : Sextet, (enc6 v).toNat = if v = 0 then 0x60 else v.toNat + 0x20) ∧
  (∀ c : Byte, (dec6 c).toNat = ((c.toNat + 256 - 0x20) % 256) % 64) ∧
  (∀ v : Sextet, enc6 v = BitVec.ofBool false ++ BitVec.ofBool (v.getLsbD 5 || decide (v = 0)) ++ (v ^^^ 0x20)) ∧
  (∀ c : Byte, dec6 c = c.extractLsb' 0 6 ^^^ 0x20) ∧
  (∀ v : Sextet, dec6 (enc6 v) = v) ∧
  (∀ c : Byte, dec6 (c + 64) = dec6 c) ∧
  (∀ c : Byte, c.toNat % 64 = ((dec6 c).toNat + 32) % 64) ∧
  (∀ c : Byte, enc6 (dec6 c) = c ↔ 0x21 ≤ c.toNat ∧ c.toNat ≤ 0x60)

/-- 41_pack34.md R100, R101, R102, R109 and 30_encoding.md R66: the packing functions, run as instructions, cut the word
`b0 ‖ b1 ‖ b2` into its four sextets, a missing byte being 0x00. -/
def Obligations.PackingCutsTheWord : Prop :=
  ∀ (b0 b1 b2 : Byte) (s : State),
    let answers (i : Instr) (W : BitVec 24) : Prop :=
      ∃ s0 s1 s2 s3 : Sextet, s0 ++ s1 ++ s2 ++ s3 = W ∧
        exec i s = .next { s with link := { s.link with ack := .performed, fnOut := some (.quad s0 s1 s2 s3) } }
    answers (.pack3 b0 b1 b2) (b0 ++ b1 ++ b2) ∧
    answers (.pack2 b0 b1) (b0 ++ b1 ++ (0x00 : Byte)) ∧
    answers (.pack1 b0) (b0 ++ (0x00 : Byte) ++ (0x00 : Byte))

/-- 41_pack34.md R103, R104, R105, R109: the unpacking functions, run as instructions, cut the word of their sextets
into bytes; `UNPACK2` and `UNPACK1` give the first two and the first, whatever stands for the sextets they do not take. -/
def Obligations.UnpackingCutsTheWord : Prop :=
  ∀ (c0 c1 c2 c3 : Sextet) (s : State),
    ∃ o0 o1 o2 : Byte, o0 ++ o1 ++ o2 = c0 ++ c1 ++ c2 ++ c3 ∧
      exec (.unpack3 c0 c1 c2 c3) s =
        .next { s with link := { s.link with ack := .performed, fnOut := some (.bytes [o0, o1, o2]) } } ∧
      exec (.unpack2 c0 c1 c2) s =
        .next { s with link := { s.link with ack := .performed, fnOut := some (.bytes [o0, o1]) } } ∧
      exec (.unpack1 c0 c1) s =
        .next { s with link := { s.link with ack := .performed, fnOut := some (.bytes [o0]) } }

/-- 41_pack34.md R106, R107: `PACK3` and `UNPACK3` are inverse to each other, and the partial forms give their bytes
back whatever the ignored bits are. -/
def Obligations.PackAndUnpackAreInverse : Prop :=
  (∀ b0 b1 b2 : Byte,
    let q := pack3 b0 b1 b2
    unpack3 q.s0 q.s1 q.s2 q.s3 = { o0 := b0, o1 := b1, o2 := b2 }) ∧
  (∀ c0 c1 c2 c3 : Sextet,
    let o := unpack3 c0 c1 c2 c3
    pack3 o.o0 o.o1 o.o2 = { s0 := c0, s1 := c1, s2 := c2, s3 := c3 }) ∧
  (∀ b0 b1 : Byte, let q := pack2 b0 b1; unpack2 q.s0 q.s1 q.s2 = (b0, b1)) ∧
  (∀ b0 : Byte, let q := pack1 b0; unpack1 q.s0 q.s1 = b0) ∧
  (∀ c0 c1 c2 c2' : Sextet, c2 >>> 2 = c2' >>> 2 → unpack2 c0 c1 c2 = unpack2 c0 c1 c2') ∧
  (∀ c0 c1 c1' : Sextet, c1 >>> 4 = c1' >>> 4 → unpack1 c0 c1 = unpack1 c0 c1')

/-- 42_linelen.md R120, R121, R122, R125: the length functions, run as instructions. `LENNEED` and `LENCHARS` complete
for every count; their value is stated for 1 to 45 only, and outside it is a free value of which nothing is said. -/
def Obligations.LengthFunctionsAnswer : Prop :=
  ∀ (n : Sextet) (c : Byte) (s : State),
    exec (.lenenc n) s = .next { s with link := { s.link with ack := .performed, fnOut := some (.char (enc6 n)) } } ∧
    exec (.lendec c) s =
      .next { s with
        link := { s.link with
          ack := .performed
          fnOut := some (.counted (dec6 c)
            (if (dec6 c).toNat = 0 then .zero else if (dec6 c).toNat ≤ 45 then .data else .bad)) } } ∧
    (∃ r : Nat, exec (.lenneed n) s =
        .next { s with link := { s.link with ack := .performed, fnOut := some (.count r) } } ∧
      (1 ≤ n.toNat → n.toNat ≤ 45 →
        r = 4 * (n.toNat / 3) + (if n.toNat % 3 = 0 then 0 else if n.toNat % 3 = 1 then 2 else 3))) ∧
    (∃ r : Nat, exec (.lenchars n) s =
        .next { s with link := { s.link with ack := .performed, fnOut := some (.count r) } } ∧
      (1 ≤ n.toNat → n.toNat ≤ 45 → r = 4 * ((n.toNat + 2) / 3)))

/-- 42_linelen.md R122, R125: the two counts by their formulas; `LENNEED(n)` is at most `LENCHARS(n)`, with equality
exactly when `n mod 3` = 0, so every line the encoder emits passes the decoder's length check. -/
def Obligations.NeededCharsAreAtMostEmitted : Prop :=
  ∀ n : Sextet, 1 ≤ n.toNat → n.toNat ≤ 45 →
    lenneed n = 4 * (n.toNat / 3) + (if n.toNat % 3 = 0 then 0 else if n.toNat % 3 = 1 then 2 else 3) ∧
    lenchars n = 4 * ((n.toNat + 2) / 3) ∧
    lenneed n ≤ lenchars n ∧ (lenneed n = lenchars n ↔ n.toNat % 3 = 0) ∧ lenchars n ≤ 60

/-! ## Encoding -/

/-- 30_encoding.md R78, R80, R70 and the FN rows of the opcode table: decoding the encoding of a well-formed instruction
gives it back, for all forty constructors and every operand. Where the operands of an FN row lie is the MODEL's choice
(log entry 15). -/
def Obligations.DecodeUndoesEncode : Prop :=
  ∀ i : Instr, i.WellFormed → decode (encode i) = .ok i

/-- 30_encoding.md R78, R79: every 16-bit word has one meaning: encoding what it decodes to gives the word back. -/
def Obligations.EncodeUndoesDecodeOnWords : Prop :=
  ∀ w : Word, encode (decodeWord w) = .word w ∧ (decodeWord w).WellFormed

/-- Whatever the decoder accepts is well formed. -/
def Obligations.DecoderAcceptsOnlyWellFormed : Prop :=
  ∀ (e : Encoding) (i : Instr), decode e = .ok i → i.WellFormed

/-- 30_encoding.md R78: no word selects two rows of the command table. -/
def Obligations.CommandRowsDoNotOverlap : Prop :=
  commandRows.Pairwise (fun r q => ∀ w : Word, selects r.1 r.2 w = true → selects q.1 q.2 w = false)

/-- 30_encoding.md R79: which words are reserved, operation by operation, and that a reserved word is refused with
`BadCommand` and changes nothing. -/
def Obligations.ReservedWordsAreRefused : Prop :=
  ∀ w : Word,
    let op := w.toNat / 4096
    let arg := w.toNat % 4096
    (decodeWord w = .reserved w ↔
      op = 0x0 ∨ op = 0xF ∨ (op = 0x1 ∧ arg ≠ 1 ∧ arg ≠ 2 ∧ arg ≠ 3) ∨ (op = 0x2 ∧ 512 ≤ arg) ∨
      ((op = 0x3 ∨ op = 0x5 ∨ op = 0x9) ∧ 256 ≤ arg) ∨ (op = 0x8 ∧ 2 ≤ arg) ∨ (op = 0xB ∧ 3 ≤ arg) ∨
      ((op = 0x4 ∨ op = 0x6 ∨ op = 0x7 ∨ op = 0xA ∨ op = 0xC ∨ op = 0xD ∨ op = 0xE) ∧ arg ≠ 0)) ∧
    ∀ s : State, exec (.reserved w) s = .next (s.refusedWith .badCommand)

/-- A few words of 30_encoding.md R78 and lines of R70, decoded, and the operand bits of one FN row. Where an FN row's
operands lie is the MODEL's choice (log entry 15), after 30_encoding.md R66 and 41_pack34.md R100: the last conjunct is
written out from no encoding table of the spec. -/
def Obligations.SampleEncodingsDecode : Prop :=
  decode (.word 0x1003) = .ok .resetAll ∧ decode (.word 0x21A4) = .ok (.eSetmode 0x1A4) ∧
  decode (.word 0x5043) = .ok (.eByte 0x43) ∧ decode (.word 0x8001) = .ok (.dStart true) ∧
  decode (.word 0x900A) = .ok (.dChar 0x0A) ∧ decode (.word 0xB002) = .ok .dTgtResfail ∧
  decode (.word 0xE000) = .ok .eRdfail ∧ decode (.word 0x2200) = .ok (.reserved 0x2200) ∧
  decode (.line .dEnd [0x65, 0x6E, 0x64] false) = .ok .lEnd ∧
  decode (.line .dData [0xA0, 0x41] false) = .ok (.lTerm [0xA0, 0x41]) ∧
  decode (.line .dHalt [0x65, 0x6E, 0x64] false) = .error .noLineInThisState ∧
  decode (.call .pack3 0x436174) = .ok (.pack3 0x43 0x61 0x74)

/-! ## The machine -/

/-- 00_scope.md R7: a step takes the next command word from the port, decodes it and runs the instruction; with nothing
at the port nothing happens (log entry 9). -/
def Obligations.StepRunsTheDecodedCommand : Prop :=
  ∀ s : State,
    (s.link.port = [] → step s = .next s) ∧
    (∀ (w : Word) (rest : List Word), s.link.port = w :: rest →
      (decodeWord w).WellFormed ∧
      step s = exec (decodeWord w) { s with link := { s.link with port := rest } })

/-- 20_memory.md R51: the commands at the port are performed in the order the host issues them, each complete before the
next: running as many steps as there are words is running their instructions one after another. -/
def Obligations.CommandsRunInOrder : Prop :=
  ∀ (ws rest : List Word) (s : State), ∃ t : State,
    runAll (ws.map decodeWord) s = .next t ∧
    Host.Core.run Sys2Proof.core ws.length { s with link := { s.link with port := ws ++ rest } } =
      .next { t with link := { t.link with port := rest } }

/-- 93_implementation_defined.md (treatment words: "`stuck` is not used by this spec") and 60_exceptions.md R205: every
instruction, well formed or not, answers a next state in every state, with the host told performed or refused; a
refusal leaves all but the answer as it was. -/
def Obligations.NoInstructionStopsTheMachine : Prop :=
  ∀ (i : Instr) (s : State), ∃ t : State, exec i s = .next t ∧
    (t.link.ack = .performed ∨ ∃ r : Reason, t = s.refusedWith r)

/-- 43_encoder_frame.md R141 and 44_decoder_frame.md R178: in which states each command is performed. -/
def Obligations.AcceptanceTables : Prop :=
  ∀ s : State,
    let performed (i : Instr) : Prop := ∃ t : State, exec i s = .next t ∧ t.link.ack = .performed
    (∀ m, performed (.eSetmode m) ↔ s.enc.state = .eIdle) ∧
    (∀ c, performed (.eNamech c) ↔ s.enc.state = .eIdle ∧ s.enc.nlen < s.params.nameMax) ∧
    (performed .eStart ↔ s.enc.state = .eIdle ∧ s.enc.nlen ≠ 0) ∧
    (∀ b, performed (.eByte b) ↔ s.enc.state = .eRun) ∧
    (performed .eEof ↔ s.enc.state = .eRun) ∧
    (performed .eSinkfail ↔ s.enc.state = .eRun ∨ s.enc.state = .eDone) ∧
    (performed .eRdfail ↔ s.enc.state = .eRun) ∧
    (∀ m, performed (.dStart m) ↔ s.dec.state = .dIdle ∨ s.dec.state = .dHalt) ∧
    (∀ c, performed (.dChar c) ↔ s.dec.state ≠ .dIdle ∧ s.dec.state ≠ .dWait) ∧
    (performed .dEof ↔ s.dec.state ≠ .dIdle ∧ s.dec.state ≠ .dWait) ∧
    (performed .dTgtOk ↔ s.dec.state = .dWait) ∧
    (performed .dTgtIofail ↔ s.dec.state = .dWait) ∧
    (performed .dTgtResfail ↔ s.dec.state = .dWait) ∧
    (performed .dSinkfail ↔ s.dec.state = .dData ∨ s.dec.state = .dEnd) ∧
    (performed .dRdfail ↔ s.dec.state ≠ .dIdle ∧ s.dec.state ≠ .dWait) ∧
    performed .resetE ∧ performed .resetD ∧ performed .resetAll

/-- 10_state.md R12, R17, R18, R26 and 60_exceptions.md R191: the layout of the status words and the numbers in them. -/
def Obligations.StatusWordLayout : Prop :=
  (∀ e : Enc, e.status.extractLsb' 0 2 = e.state.code ∧ e.status.extractLsb' 2 4 = e.err.code) ∧
  (∀ d : Dec, d.status.extractLsb' 0 3 = dStateCode d.state ∧ d.status.getLsbD 3 = d.multi ∧
    d.status.getLsbD 4 = d.seen ∧ d.status.getLsbD 5 = d.anyFail ∧ d.status.extractLsb' 6 4 = d.err.code) ∧
  [EState.eIdle, .eRun, .eDone, .eFail].map EState.code = [0, 1, 2, 3] ∧
  [DState.dIdle, .dSeek, .dWait, .dData, .dEnd, .dHalt].map dStateCode = [0, 1, 2, 3, 4, 5] ∧
  [FaultCode.ok, .noBegin, .noEnd, .shortFile, .resolve, .targetIo, .sinkIo, .sourceIo, .badHeader, .badLength,
    .shortLine].map FaultCode.code = [0, 1, 2, 3, 4, 5, 6, 7, 8, 9, 10]

/-- 10_state.md R30: every step keeps the invariant of the registers. -/
def Obligations.StepKeepsTheInvariant : Prop :=
  ∀ s t : State, s.Inv → step s = .next t → t.Inv

/-- The invariant holds at power-on, on every platform whose parameters meet their constraints. -/
def Obligations.InvariantHoldsAtReset : Prop :=
  State.reset.Inv ∧ ∀ p : Params, p.ok = true → (State.resetOn p).Inv

/-- 20_memory.md R55: what a unit has appended to its sink stays there whatever happens later. -/
def Obligations.OutputIsNeverRetracted : Prop :=
  ∀ (is : List Instr) (s t : State), runAll is s = .next t →
    s.link.eSink <+: t.link.eSink ∧ s.link.dSink <+: t.link.dSink

/-- 60_exceptions.md R200, R207: an instruction that emits `END(code)` with a code other than 0 emits nothing else,
latches the code and the fail flag, keeps `D_MULTI`, and goes to `Next()` or `D_HALT`; an instruction that emits no
such symbol raises no fault: `D_ERR` and `D_ANYFAIL` are as before, or cleared. -/
def Obligations.FaultsAreReportedOnce : Prop :=
  ∀ (i : Instr) (s t : State), exec i s = .next t →
    ∃ ys : List DSym, t.link.dSink = s.link.dSink ++ ys ∧
      ((∃ code : FaultCode, code ≠ .ok ∧ ys = [.endCode code] ∧ t.dec.err = code ∧ t.dec.anyFail = true ∧
          t.dec.multi = s.dec.multi ∧ (t.dec.state = (if s.dec.multi then .dSeek else .dHalt) ∨ t.dec.state = .dHalt)) ∨
        ((∀ code : FaultCode, DSym.endCode code ∈ ys → code = .ok) ∧
          (t.dec.err = s.dec.err ∨ t.dec.err = .ok) ∧ (t.dec.anyFail = s.dec.anyFail ∨ t.dec.anyFail = false)))

/-- 20_memory.md R52: for any interleaving of commands to ENC and commands to DEC, the result for each unit is what it
would be alone. -/
def Obligations.UnitsAreIndependent : Prop :=
  ∀ (is : List Instr) (s : State), (∀ i ∈ is, i.forEnc = true ∨ i.forDec = true) →
    ∃ t te td : State, runAll is s = .next t ∧
      runAll (is.filter Instr.forEnc) s = .next te ∧ runAll (is.filter Instr.forDec) s = .next td ∧
      t.enc = te.enc ∧ t.link.eSink = te.link.eSink ∧ t.dec = td.dec ∧ t.link.dSink = td.link.dSink

/-- 43_encoder_frame.md R142: what the ENC sink receives in a whole session, for every mode, name and source. -/
def Obligations.EncoderSessionEmitsTheStream : Prop :=
  ∀ (m : Mode) (N B : List Byte) (s : State),
    s.enc.state = .eIdle → s.enc.name = [] → 1 ≤ N.length → N.length ≤ s.params.nameMax →
    runAll (encodeSession m N B) s =
      .next (s.performedWith { state := .eDone, mode := m, name := N, chunk := [], err := s.enc.err } s.dec
        (headerLine m N ++ streamBody B) [])

/-- 43_encoder_frame.md R142: the number of characters of the stream. -/
def Obligations.StreamLengthFormula : Prop :=
  ∀ (m : Mode) (N B : List Byte),
    (headerLine m N ++ streamBody B).length =
      6 + (octal m).length + 1 + N.length + 1 + 62 * (B.length / 45) +
        (if B.length % 45 ≠ 0 then 2 + 4 * ((B.length % 45 + 2) / 3) else 0) + 2 + 4

/-- 41_pack34.md R106, R107 and 42_linelen.md R125, line by line: what ENC writes for a chunk, DEC reads as a data line
and gives the chunk back. -/
def Obligations.EncodedLineDecodesToItsChunk : Prop :=
  ∀ chunk : List Byte, 1 ≤ chunk.length → chunk.length ≤ 45 →
    ∃ text : List Byte, dataLine chunk = text ++ [0x0A] ∧
      decodeLine .dData text false = .ok (.lData text) ∧ lineBytes text = chunk

/-- 44_decoder_frame.md R155 to R170: a stream as ENC writes it, fed to a parser that seeks a header in whatever session,
delivers the header, the bytes and `END(0)`, and leaves the fail flag and the code of earlier streams as they were. -/
def Obligations.StreamDecodesInAnySession : Prop :=
  ∀ (m : Mode) (N B : List Byte) (s : State),
    s.params.ok = true → nameOk s.params m N = true →
    s.dec.state = .dSeek → s.dec.lbuf = [] → s.dec.ovl = false →
    runAll (feedStream .dTgtOk (headerLine m N) (streamBody B)) s =
      .next (s.performedWith s.enc
        { s.dec with seen := true, mode := m, name := N, state := if s.dec.multi then .dSeek else .dHalt } []
        ([.hdr m N] ++ B.map DSym.byte ++ [.endCode .ok]))

/-- 44_decoder_frame.md R180: failure isolation. In a multi-stream session the first stream's target cannot be created;
nothing of it is emitted, and the second stream is decoded as if it stood alone. -/
def Obligations.FailedTargetIsIsolated : Prop :=
  ∀ (m1 m2 : Mode) (N1 B1 N2 B2 : List Byte) (s : State),
    s.params.ok = true → nameOk s.params m1 N1 = true → nameOk s.params m2 N2 = true →
    s.dec.state = .dSeek → s.dec.multi = true → s.dec.lbuf = [] → s.dec.ovl = false →
    runAll (feedStream .dTgtIofail (headerLine m1 N1) (streamBody B1) ++
        feedStream .dTgtOk (headerLine m2 N2) (streamBody B2)) s =
      .next (s.performedWith s.enc
        { s.dec with seen := true, mode := m2, name := N2, err := .targetIo, anyFail := true } []
        ([.hdr m1 N1, .endCode .targetIo, .hdr m2 N2] ++ B2.map DSym.byte ++ [.endCode .ok]))

/-- 00_scope.md R9: the round trip. For every mode, name that meets R133 and source, the characters ENC emits, fed to a
freshly started DEC with `D.TGT.OK` after the header and `D.EOF` at the end, give exactly the header, the bytes in
order and `END(0)`, and `D_ANYFAIL` stays 0. -/
def Obligations.RoundTrip : Prop :=
  ∀ (multi : Bool) (m : Mode) (N B : List Byte) (s : State),
    s.params.ok = true → nameOk s.params m N = true →
    s.enc.state = .eIdle → s.enc.name = [] → (s.dec.state = .dIdle ∨ s.dec.state = .dHalt) →
    ∃ (t u : State) (header body : List Byte),
      runAll (encodeSession m N B) s = .next t ∧
      t.link.eSink = s.link.eSink ++ (header ++ body) ∧
      header.getLast? = some 0x0A ∧ (0x0A : Byte) ∉ header.dropLast ∧
      runAll (decodeSession multi header body) t = .next u ∧
      u.link.dSink = s.link.dSink ++ ([.hdr m N] ++ B.map DSym.byte ++ [.endCode .ok]) ∧
      u.dec.anyFail = false ∧ u.dec.state = .dHalt

/-- 10_state.md R31: `D.START` re-initialises every decoder register: where it is accepted it does what it does in a
freshly reset decoder, so nothing of an earlier session is left. -/
def Obligations.StartForgetsTheLastSession : Prop :=
  ∀ (m : Bool) (s : State), s.dec.state = .dIdle ∨ s.dec.state = .dHalt →
    exec (.dStart m) s = runAll [.resetD, .dStart m] s ∧
    ∃ t : State, exec (.dStart m) s = .next t ∧ t.link.ack = .performed ∧
      ∀ (s' u : State), (s'.dec.state = .dIdle ∨ s'.dec.state = .dHalt) → exec (.dStart m) s' = .next u →
        u.dec = t.dec
end

