-- ==== Sys2Proof/Laws/State.lean ====
section
/-! SUPPORT. One lemma per field per update of the state, true by unfolding, so that no proof unfolds a record
update. -/

namespace Sys2Proof.Machine

@[simp] theorem State.setEnc_enc (s : State) (e : Enc) : (s.setEnc e).enc = e := rfl
@[simp] theorem State.setEnc_dec (s : State) (e : Enc) : (s.setEnc e).dec = s.dec := rfl
@[simp] theorem State.setEnc_params (s : State) (e : Enc) : (s.setEnc e).params = s.params := rfl
@[simp] theorem State.setEnc_port (s : State) (e : Enc) : (s.setEnc e).link.port = s.link.port := rfl
@[simp] theorem State.setEnc_ack (s : State) (e : Enc) : (s.setEnc e).link.ack = s.link.ack := rfl
@[simp] theorem State.setEnc_eSink (s : State) (e : Enc) : (s.setEnc e).link.eSink = s.link.eSink := rfl
@[simp] theorem State.setEnc_dSink (s : State) (e : Enc) : (s.setEnc e).link.dSink = s.link.dSink := rfl
@[simp] theorem State.setEnc_fnOut (s : State) (e : Enc) : (s.setEnc e).link.fnOut = s.link.fnOut := rfl

@[simp] theorem State.setDec_enc (s : State) (d : Dec) : (s.setDec d).enc = s.enc := rfl
@[simp] theorem State.setDec_dec (s : State) (d : Dec) : (s.setDec d).dec = d := rfl
@[simp] theorem State.setDec_params (s : State) (d : Dec) : (s.setDec d).params = s.params := rfl
@[simp] theorem State.setDec_port (s : State) (d : Dec) : (s.setDec d).link.port = s.link.port := rfl
@[simp] theorem State.setDec_ack (s : State) (d : Dec) : (s.setDec d).link.ack = s.link.ack := rfl
@[simp] theorem State.setDec_eSink (s : State) (d : Dec) : (s.setDec d).link.eSink = s.link.eSink := rfl
@[simp] theorem State.setDec_dSink (s : State) (d : Dec) : (s.setDec d).link.dSink = s.link.dSink := rfl
@[simp] theorem State.setDec_fnOut (s : State) (d : Dec) : (s.setDec d).link.fnOut = s.link.fnOut := rfl

@[simp] theorem State.setAck_enc (s : State) (a : Ack) : (s.setAck a).enc = s.enc := rfl
@[simp] theorem State.setAck_dec (s : State) (a : Ack) : (s.setAck a).dec = s.dec := rfl
@[simp] theorem State.setAck_params (s : State) (a : Ack) : (s.setAck a).params = s.params := rfl
@[simp] theorem State.setAck_port (s : State) (a : Ack) : (s.setAck a).link.port = s.link.port := rfl
@[simp] theorem State.setAck_ack (s : State) (a : Ack) : (s.setAck a).link.ack = a := rfl
@[simp] theorem State.setAck_eSink (s : State) (a : Ack) : (s.setAck a).link.eSink = s.link.eSink := rfl
@[simp] theorem State.setAck_dSink (s : State) (a : Ack) : (s.setAck a).link.dSink = s.link.dSink := rfl
@[simp] theorem State.setAck_fnOut (s : State) (a : Ack) : (s.setAck a).link.fnOut = s.link.fnOut := rfl

@[simp] theorem State.setPort_enc (s : State) (p : List Word) : (s.setPort p).enc = s.enc := rfl
@[simp] theorem State.setPort_dec (s : State) (p : List Word) : (s.setPort p).dec = s.dec := rfl
@[simp] theorem State.setPort_params (s : State) (p : List Word) : (s.setPort p).params = s.params := rfl
@[simp] theorem State.setPort_port (s : State) (p : List Word) : (s.setPort p).link.port = p := rfl
@[simp] theorem State.setPort_ack (s : State) (p : List Word) : (s.setPort p).link.ack = s.link.ack := rfl
@[simp] theorem State.setPort_eSink (s : State) (p : List Word) : (s.setPort p).link.eSink = s.link.eSink := rfl
@[simp] theorem State.setPort_dSink (s : State) (p : List Word) : (s.setPort p).link.dSink = s.link.dSink := rfl
@[simp] theorem State.setPort_fnOut (s : State) (p : List Word) : (s.setPort p).link.fnOut = s.link.fnOut := rfl

@[simp] theorem State.setFnOut_enc (s : State) (r : FnResult) : (s.setFnOut r).enc = s.enc := rfl
@[simp] theorem State.setFnOut_dec (s : State) (r : FnResult) : (s.setFnOut r).dec = s.dec := rfl
@[simp] theorem State.setFnOut_params (s : State) (r : FnResult) : (s.setFnOut r).params = s.params := rfl
@[simp] theorem State.setFnOut_port (s : State) (r : FnResult) : (s.setFnOut r).link.port = s.link.port := rfl
@[simp] theorem State.setFnOut_ack (s : State) (r : FnResult) : (s.setFnOut r).link.ack = s.link.ack := rfl
@[simp] theorem State.setFnOut_eSink (s : State) (r : FnResult) : (s.setFnOut r).link.eSink = s.link.eSink := rfl
@[simp] theorem State.setFnOut_dSink (s : State) (r : FnResult) : (s.setFnOut r).link.dSink = s.link.dSink := rfl
@[simp] theorem State.setFnOut_fnOut (s : State) (r : FnResult) : (s.setFnOut r).link.fnOut = some r := rfl

@[simp] theorem State.eOutStr_enc (s : State) (cs : List Byte) : (s.eOutStr cs).enc = s.enc := rfl
@[simp] theorem State.eOutStr_dec (s : State) (cs : List Byte) : (s.eOutStr cs).dec = s.dec := rfl
@[simp] theorem State.eOutStr_params (s : State) (cs : List Byte) : (s.eOutStr cs).params = s.params := rfl
@[simp] theorem State.eOutStr_port (s : State) (cs : List Byte) : (s.eOutStr cs).link.port = s.link.port := rfl
@[simp] theorem State.eOutStr_ack (s : State) (cs : List Byte) : (s.eOutStr cs).link.ack = s.link.ack := rfl
@[simp] theorem State.eOutStr_eSink (s : State) (cs : List Byte) : (s.eOutStr cs).link.eSink = s.link.eSink ++ cs := rfl
@[simp] theorem State.eOutStr_dSink (s : State) (cs : List Byte) : (s.eOutStr cs).link.dSink = s.link.dSink := rfl
@[simp] theorem State.eOutStr_fnOut (s : State) (cs : List Byte) : (s.eOutStr cs).link.fnOut = s.link.fnOut := rfl

@[simp] theorem State.dOutAll_enc (s : State) (ys : List DSym) : (s.dOutAll ys).enc = s.enc := rfl
@[simp] theorem State.dOutAll_dec (s : State) (ys : List DSym) : (s.dOutAll ys).dec = s.dec := rfl
@[simp] theorem State.dOutAll_params (s : State) (ys : List DSym) : (s.dOutAll ys).params = s.params := rfl
@[simp] theorem State.dOutAll_port (s : State) (ys : List DSym) : (s.dOutAll ys).link.port = s.link.port := rfl
@[simp] theorem State.dOutAll_ack (s : State) (ys : List DSym) : (s.dOutAll ys).link.ack = s.link.ack := rfl
@[simp] theorem State.dOutAll_eSink (s : State) (ys : List DSym) : (s.dOutAll ys).link.eSink = s.link.eSink := rfl
@[simp] theorem State.dOutAll_dSink (s : State) (ys : List DSym) : (s.dOutAll ys).link.dSink = s.link.dSink ++ ys := rfl
@[simp] theorem State.dOutAll_fnOut (s : State) (ys : List DSym) : (s.dOutAll ys).link.fnOut = s.link.fnOut := rfl

/-- Two states with the same fields are the same. -/
theorem State.ext_fields {s t : State} (he : s.enc = t.enc) (hd : s.dec = t.dec) (hp : s.params = t.params)
    (h1 : s.link.port = t.link.port) (h2 : s.link.ack = t.link.ack) (h3 : s.link.eSink = t.link.eSink)
    (h4 : s.link.dSink = t.link.dSink) (h5 : s.link.fnOut = t.link.fnOut) : s = t := by
  obtain ⟨e, d, ⟨p, a, es, ds, f⟩, ps⟩ := s
  obtain ⟨e', d', ⟨p', a', es', ds', f'⟩, ps'⟩ := t
  simp only at he hd hp h1 h2 h3 h4 h5
  subst he hd hp h1 h2 h3 h4 h5
  rfl

end Sys2Proof.Machine
end

