-- ==== Sys2Proof/Laws/Ops.lean ====
section
/-! SUPPORT. For each shared operation, once, everything it can do. -/

namespace Sys2Proof.Machine

/-- A performed command answers a next state: the effect, with the host told so. -/
theorem done_next_iff (s t : State) : done s = .next t ↔ t = s.setAck .performed := by
  simp [done, eq_comm]

/-- A refused command answers a next state in which only the host's answer differs (60_exceptions.md R205). -/
theorem turnAway_next_iff (r : Reason) (s t : State) : turnAway r s = .next t ↔ t = s.setAck (.refused r) := by
  simp [turnAway, eq_comm]

/-- A line kind either is the one the line map selects and takes its effect, or is refused with nothing changed. -/
theorem onLine_next {k : LineKind} {L : List Byte} {ovl : Bool} {s eff t : State} (h : onLine k L ovl s eff = .next t) :
    (lineKind s.dec.state L ovl = some k ∧ t = eff.setAck .performed) ∨
      (lineKind s.dec.state L ovl ≠ some k ∧ t = s.setAck (.refused .badState)) := by
  unfold onLine at h
  split at h
  next hk => exact .inl ⟨hk, (done_next_iff _ _).1 h⟩
  next hk => exact .inr ⟨hk, (turnAway_next_iff _ _ _).1 h⟩

/-- Where the line map selects the kind, its effect is performed. -/
theorem onLine_selected {k : LineKind} {L : List Byte} {ovl : Bool} {s eff : State}
    (h : lineKind s.dec.state L ovl = some k) : onLine k L ovl s eff = .next (eff.setAck .performed) := by
  simp [onLine, h, done]

/-- Fault entry in ENC writes `E_ERR` and `E_STATE` and nothing else (60_exceptions.md R201). -/
theorem raiseEnc_eq (code : FaultCode) (s : State) :
    raiseEnc code s = { s with enc := { s.enc with err := code, state := .eFail } } := rfl

/-- Fault entry in DEC writes `D_ERR`, `D_ANYFAIL` and `D_STATE` and appends one `END(code)` (60_exceptions.md R200). -/
theorem raiseDec_eq (code : FaultCode) (st : DState) (s : State) :
    raiseDec code st s =
      { s with
        dec := { s.dec with err := code, anyFail := true, state := st }
        link := { s.link with dSink := s.link.dSink ++ [.endCode code] } } := rfl

/-- `Next()` is `D_SEEK` or `D_HALT` (44_decoder_frame.md R159). -/
theorem nextStream_cases (d : Dec) :
    (d.multi = true ∧ nextStream d = .dSeek) ∨ (d.multi = false ∧ nextStream d = .dHalt) := by
  unfold nextStream
  cases d.multi <;> simp

/-- Clearing the line assembler writes `D_LBUF` and `D_OVER` and nothing else. -/
theorem clearLine_eq (s : State) : clearLine s = { s with dec := { s.dec with lbuf := [], ovl := false } } := rfl

/-- `D_STATE <- st` writes nothing else. -/
theorem goDec_eq (st : DState) (s : State) : goDec st s = { s with dec := { s.dec with state := st } } := rfl

/-- A character either enters the line buffer, where there is room, or sets `D_OVER` (44_decoder_frame.md R151). -/
theorem assemble_cases (c : Byte) (s : State) :
    (lineHasRoom s.params s.dec.lbuf = true ∧
        assemble c s = { s with dec := { s.dec with lbuf := s.dec.lbuf ++ [c] } }) ∨
      (lineHasRoom s.params s.dec.lbuf = false ∧ assemble c s = { s with dec := { s.dec with ovl := true } }) := by
  unfold assemble
  cases h : lineHasRoom s.params s.dec.lbuf
  · exact .inr ⟨rfl, rfl⟩
  · exact .inl ⟨rfl, rfl⟩

/-- A command accepted in `D_WAIT` only either takes its effect there or is refused (44_decoder_frame.md R178). -/
theorem inWait_next {s eff t : State} (h : inWait s eff = .next t) :
    (s.dec.state = .dWait ∧ t = eff.setAck .performed) ∨
      (s.dec.state ≠ .dWait ∧ t = s.setAck (.refused .badState)) := by
  unfold inWait at h
  split at h <;> rename_i hs
  case h_3 => exact .inl ⟨hs, (done_next_iff _ _).1 h⟩
  all_goals exact .inr ⟨by simp [hs], (turnAway_next_iff _ _ _).1 h⟩

/-- A stored byte either emits the whole line, being the 45th of its chunk, or only enters the chunk
(43_encoder_frame.md R135). -/
theorem storeByte_cases (b : Byte) (s : State) :
    (s.enc.chunk.length + 1 = 45 ∧
        storeByte b s = { s with
          enc := { s.enc with chunk := [] }
          link := { s.link with eSink := s.link.eSink ++ dataLine (s.enc.chunk ++ [b]) } }) ∨
      (s.enc.chunk.length + 1 ≠ 45 ∧
        storeByte b s = { s with enc := { s.enc with chunk := s.enc.chunk ++ [b] } }) := by
  by_cases h : s.enc.chunk.length + 1 = 45
  · exact .inl ⟨h, by simp [storeByte, Enc.cnt, Config.lineBytes, h, emitChunk, State.eOutStr, State.setEnc]⟩
  · exact .inr ⟨h, by simp [storeByte, Enc.cnt, Config.lineBytes, h, State.setEnc]⟩

end Sys2Proof.Machine
end

