-- ==== Sys2Proof/Laws/PerInstr.lean ====
section
/-! SUPPORT. Families of statements made per instruction. `CommandRow`: which row of the command table
(30_encoding.md R78) the word of an instruction selects. It is about the instruction as syntax. -/

namespace Sys2Proof.Laws

open Sys2Proof.Machine

/-- Whether a word is what a well-formed instruction's word has to be: the word of a command matches a row of R78, a
reserved word matches none (R79). -/
def wordFits (i : Instr) (w : Word) : Prop :=
  if i = .reserved w then isCommand w = false else isCommand w = true

/-- The family: a well-formed instruction that has a command word has one that fits. -/
def CommandRow.Statement (i : Instr) : Prop := i.WellFormed → ∀ w : Word, commandWord i = some w → wordFits i w

/-- An instruction with no command word says nothing about words. -/
theorem commandRow_of_none {i : Instr} (h : commandWord i = none) : CommandRow.Statement i := by
  intro _ w hw
  simp [h] at hw

/-- A command whose word matches a row. -/
theorem commandRow_of_some {i : Instr} {w : Word} (h : commandWord i = some w) (hr : ∀ v, i ≠ .reserved v)
    (hw : isCommand w = true) : CommandRow.Statement i := by
  intro _ w' hw'
  rw [h] at hw'
  cases hw'
  simp [wordFits, hr, hw]

theorem CommandRow.resetE : CommandRow.Statement .resetE := commandRow_of_some rfl (by simp) (by decide)

theorem CommandRow.resetD : CommandRow.Statement .resetD := commandRow_of_some rfl (by simp) (by decide)

theorem CommandRow.resetAll : CommandRow.Statement .resetAll := commandRow_of_some rfl (by simp) (by decide)

theorem CommandRow.eSetmode (m : Mode) : CommandRow.Statement (.eSetmode m) :=
  commandRow_of_some rfl (by simp) (by revert m; decide)

theorem CommandRow.eNamech (c : Byte) : CommandRow.Statement (.eNamech c) :=
  commandRow_of_some rfl (by simp) (by revert c; decide)

theorem CommandRow.eStart : CommandRow.Statement .eStart := commandRow_of_some rfl (by simp) (by decide)

theorem CommandRow.eByte (b : Byte) : CommandRow.Statement (.eByte b) :=
  commandRow_of_some rfl (by simp) (by revert b; decide)

theorem CommandRow.eEof : CommandRow.Statement .eEof := commandRow_of_some rfl (by simp) (by decide)

theorem CommandRow.eSinkfail : CommandRow.Statement .eSinkfail := commandRow_of_some rfl (by simp) (by decide)

theorem CommandRow.dStart (multi : Bool) : CommandRow.Statement (.dStart multi) :=
  commandRow_of_some rfl (by simp) (by revert multi; decide)

theorem CommandRow.dChar (c : Byte) : CommandRow.Statement (.dChar c) :=
  commandRow_of_some rfl (by simp) (by revert c; decide)

theorem CommandRow.dEof : CommandRow.Statement .dEof := commandRow_of_some rfl (by simp) (by decide)

theorem CommandRow.dTgtOk : CommandRow.Statement .dTgtOk := commandRow_of_some rfl (by simp) (by decide)

theorem CommandRow.dTgtIofail : CommandRow.Statement .dTgtIofail := commandRow_of_some rfl (by simp) (by decide)

theorem CommandRow.dTgtResfail : CommandRow.Statement .dTgtResfail := commandRow_of_some rfl (by simp) (by decide)

theorem CommandRow.dSinkfail : CommandRow.Statement .dSinkfail := commandRow_of_some rfl (by simp) (by decide)

theorem CommandRow.dRdfail : CommandRow.Statement .dRdfail := commandRow_of_some rfl (by simp) (by decide)

theorem CommandRow.eRdfail : CommandRow.Statement .eRdfail := commandRow_of_some rfl (by simp) (by decide)

theorem CommandRow.reserved (w : Word) : CommandRow.Statement (.reserved w) := by
  intro hwf w' hw'
  cases hw'
  simpa [wordFits, Instr.WellFormed, Instr.wf] using hwf

theorem CommandRow.lBegin (L : List Byte) (ovl : Bool) : CommandRow.Statement (.lBegin L ovl) := commandRow_of_none rfl

theorem CommandRow.lSkip (L : List Byte) (ovl : Bool) : CommandRow.Statement (.lSkip L ovl) := commandRow_of_none rfl

theorem CommandRow.lEmpty : CommandRow.Statement .lEmpty := commandRow_of_none rfl

theorem CommandRow.lTerm (L : List Byte) : CommandRow.Statement (.lTerm L) := commandRow_of_none rfl

theorem CommandRow.lBadlen (L : List Byte) : CommandRow.Statement (.lBadlen L) := commandRow_of_none rfl

theorem CommandRow.lData (L : List Byte) : CommandRow.Statement (.lData L) := commandRow_of_none rfl

theorem CommandRow.lShort (L : List Byte) : CommandRow.Statement (.lShort L) := commandRow_of_none rfl

theorem CommandRow.lEnd : CommandRow.Statement .lEnd := commandRow_of_none rfl

theorem CommandRow.lNoend (L : List Byte) (ovl : Bool) : CommandRow.Statement (.lNoend L ovl) := commandRow_of_none rfl

theorem CommandRow.enc6 (v : Sextet) : CommandRow.Statement (.enc6 v) := commandRow_of_none rfl

theorem CommandRow.dec6 (c : Byte) : CommandRow.Statement (.dec6 c) := commandRow_of_none rfl

theorem CommandRow.pack3 (b0 b1 b2 : Byte) : CommandRow.Statement (.pack3 b0 b1 b2) := commandRow_of_none rfl

theorem CommandRow.pack2 (b0 b1 : Byte) : CommandRow.Statement (.pack2 b0 b1) := commandRow_of_none rfl

theorem CommandRow.pack1 (b0 : Byte) : CommandRow.Statement (.pack1 b0) := commandRow_of_none rfl

theorem CommandRow.unpack3 (c0 c1 c2 c3 : Sextet) : CommandRow.Statement (.unpack3 c0 c1 c2 c3) := commandRow_of_none rfl

theorem CommandRow.unpack2 (c0 c1 c2 : Sextet) : CommandRow.Statement (.unpack2 c0 c1 c2) := commandRow_of_none rfl

theorem CommandRow.unpack1 (c0 c1 : Sextet) : CommandRow.Statement (.unpack1 c0 c1) := commandRow_of_none rfl

theorem CommandRow.lenenc (n : Sextet) : CommandRow.Statement (.lenenc n) := commandRow_of_none rfl

theorem CommandRow.lendec (c : Byte) : CommandRow.Statement (.lendec c) := commandRow_of_none rfl

theorem CommandRow.lenneed (n : Sextet) : CommandRow.Statement (.lenneed n) := commandRow_of_none rfl

theorem CommandRow.lenchars (n : Sextet) : CommandRow.Statement (.lenchars n) := commandRow_of_none rfl

end Sys2Proof.Laws
end

