-- ==== Sys2Proof/Tests/Slice0.lean ====
section
/-! SUPPORT. The model's own tests. Expected values come from spec/95_test_vectors.md, spec/30_encoding.md R78 and the
examples of the rules; each theorem's comment names its source. -/

namespace Sys2Proof.Tests

open Sys2Proof.Machine

/-- The state an outcome carries; the reset state where it carries none. -/
def after (o : Out) : State :=
  match o with
  | .next t => t
  | .fault _ => State.reset
  | .refused _ => State.reset

/-- The state after a list of instructions. -/
def afterAll (is : List Instr) (s : State) : State := after (runAll is s)

/-- A platform with small bounds. -/
def tight : Params := { nameMax := 3, lineMax := some 64 }

/-- ENC in a given state with a name and a chunk, on the tight platform. -/
def encAt (st : EState) (name chunk : List Byte) (err : FaultCode := .ok) : State :=
  { State.resetOn tight with enc := { state := st, mode := 0x1A4, name := name, chunk := chunk, err := err } }

/-- DEC in a given state of a session with a line begun, on the tight platform. -/
def decAt (st : DState) (multi seen : Bool) (lbuf : List Byte) : State :=
  { State.resetOn tight with
    dec := { Dec.reset with state := st, multi := multi, seen := seen, lbuf := lbuf } }

/-! ## Well-formedness: each check refuses an ill-formed term -/

/-- 0x1001 is `RESET.E` (R78), not a reserved word. -/
theorem test_wf_reserved : Instr.wf (.reserved 0x1001) = false := by decide

/-- `Begin ` with a capital is no header (2.8 F2a). -/
theorem test_wf_lBegin : Instr.wf (.lBegin [0x42, 0x65, 0x67, 0x69, 0x6E, 0x20] false) = false := by decide

/-- A line that begins with the tag is not skipped (R154). -/
theorem test_wf_lSkip : Instr.wf (.lSkip [0x62, 0x65, 0x67, 0x69, 0x6E, 0x20] true) = false := by decide

/-- A count of 1, and an empty line, are no terminator (R166). -/
theorem test_wf_lTerm : Instr.wf (.lTerm [0x21]) = false ∧ Instr.wf (.lTerm []) = false := by decide

/-- A count of 45 is not above 45 (R167). -/
theorem test_wf_lBadlen : Instr.wf (.lBadlen [0x4D]) = false := by decide

/-- A count of 1 with one data character is short (2.8 F12). -/
theorem test_wf_lData : Instr.wf (.lData [0x21, 0x30]) = false := by decide

/-- A count of 1 needs only 2 characters (2.7 T8). -/
theorem test_wf_lShort : Instr.wf (.lShort [0x21, 0x30, 0x30]) = false := by decide

/-- `end` is the trailer (R170). -/
theorem test_wf_lNoend : Instr.wf (.lNoend [0x65, 0x6E, 0x64] false) = false := by decide

/-- Counts are 1 to 45 (R122). -/
theorem test_wf_lenneed : Instr.wf (.lenneed 0) = false ∧ Instr.wf (.lenneed 46) = false ∧ Instr.wf (.lenneed 45) = true := by decide

/-- Counts are 1 to 45 (R125). -/
theorem test_wf_lenchars : Instr.wf (.lenchars 0) = false ∧ Instr.wf (.lenchars 46) = false ∧ Instr.wf (.lenchars 1) = true := by decide

/-! ## Decoding: one encoding written out for every constructor -/

theorem test_decode_resetE : decode (.word 0x1001) = .ok (.resetE) := by decide

theorem test_decode_resetD : decode (.word 0x1002) = .ok (.resetD) := by decide

theorem test_decode_resetAll : decode (.word 0x1003) = .ok (.resetAll) := by decide

theorem test_decode_eSetmode : decode (.word 0x21A4) = .ok (.eSetmode 0x1A4) := by decide

theorem test_decode_eNamech : decode (.word 0x3061) = .ok (.eNamech 0x61) := by decide

theorem test_decode_eStart : decode (.word 0x4000) = .ok (.eStart) := by decide

theorem test_decode_eByte : decode (.word 0x5043) = .ok (.eByte 0x43) := by decide

theorem test_decode_eEof : decode (.word 0x6000) = .ok (.eEof) := by decide

theorem test_decode_eSinkfail : decode (.word 0x7000) = .ok (.eSinkfail) := by decide

theorem test_decode_dStart : decode (.word 0x8001) = .ok (.dStart true) := by decide

theorem test_decode_dChar : decode (.word 0x900A) = .ok (.dChar 0x0A) := by decide

theorem test_decode_dEof : decode (.word 0xA000) = .ok (.dEof) := by decide

theorem test_decode_dTgtOk : decode (.word 0xB000) = .ok (.dTgtOk) := by decide

theorem test_decode_dTgtIofail : decode (.word 0xB001) = .ok (.dTgtIofail) := by decide

theorem test_decode_dTgtResfail : decode (.word 0xB002) = .ok (.dTgtResfail) := by decide

theorem test_decode_dSinkfail : decode (.word 0xC000) = .ok (.dSinkfail) := by decide

theorem test_decode_dRdfail : decode (.word 0xD000) = .ok (.dRdfail) := by decide

theorem test_decode_eRdfail : decode (.word 0xE000) = .ok (.eRdfail) := by decide

theorem test_decode_reserved : decode (.word 0x2200) = .ok (.reserved 0x2200) := by decide

/-- R70, first row. -/
theorem test_decode_lBegin : decode (.line .dSeek ([0x62, 0x65, 0x67, 0x69, 0x6E, 0x20] ++ [0x36]) true) = .ok (.lBegin ([0x62, 0x65, 0x67, 0x69, 0x6E, 0x20] ++ [0x36]) true) := by decide

/-- A tab after `begin` (2.8 F2b). -/
theorem test_decode_lSkip : decode (.line .dSeek [0x62, 0x65, 0x67, 0x69, 0x6E, 0x09, 0x36] false) = .ok (.lSkip [0x62, 0x65, 0x67, 0x69, 0x6E, 0x09, 0x36] false) := by decide

theorem test_decode_lEmpty : decode (.line .dData [] false) = .ok .lEmpty := by decide

/-- 0xA0 decodes to 0 (2.3, 2.7 T3). -/
theorem test_decode_lTerm : decode (.line .dData [0xA0, 0x78] false) = .ok (.lTerm [0xA0, 0x78]) := by decide

/-- `N` is 46, however few characters follow (R204). -/
theorem test_decode_lBadlen : decode (.line .dData [0x4E] false) = .ok (.lBadlen [0x4E]) := by decide

/-- `#0V%T` (R168). -/
theorem test_decode_lData : decode (.line .dData [0x23, 0x30, 0x56, 0x25, 0x54] false) = .ok (.lData [0x23, 0x30, 0x56, 0x25, 0x54]) := by decide

/-- `#0V%` (R169). -/
theorem test_decode_lShort : decode (.line .dData [0x23, 0x30, 0x56, 0x25] false) = .ok (.lShort [0x23, 0x30, 0x56, 0x25]) := by decide

theorem test_decode_lEnd : decode (.line .dEnd [0x65, 0x6E, 0x64] false) = .ok .lEnd := by decide

/-- `end\r` (2.8 F7). -/
theorem test_decode_lNoend : decode (.line .dEnd [0x65, 0x6E, 0x64, 0x0D] false) = .ok (.lNoend [0x65, 0x6E, 0x64, 0x0D] false) := by decide

theorem test_decode_noLine : decode (.line .dWait [] false) = .error .noLineInThisState := by decide

theorem test_decode_enc6 : decode (.call .enc6 0x10) = .ok (.enc6 0x10) := by decide

theorem test_decode_dec6 : decode (.call .dec6 0x56) = .ok (.dec6 0x56) := by decide

theorem test_decode_pack3 : decode (.call .pack3 0x436174) = .ok (.pack3 0x43 0x61 0x74) := by decide

theorem test_decode_pack2 : decode (.call .pack2 0x4142) = .ok (.pack2 0x41 0x42) := by decide

theorem test_decode_pack1 : decode (.call .pack1 0x41) = .ok (.pack1 0x41) := by decide

theorem test_decode_unpack3 : decode (.call .unpack3 0b000001000010000011000100) = .ok (.unpack3 1 2 3 4) := by decide

theorem test_decode_unpack2 : decode (.call .unpack2 0b010000010100001000) = .ok (.unpack2 16 20 8) := by decide

theorem test_decode_unpack1 : decode (.call .unpack1 0b010000011111) = .ok (.unpack1 16 31) := by decide

theorem test_decode_lenenc : decode (.call .lenenc 45) = .ok (.lenenc 45) := by decide

theorem test_decode_lendec : decode (.call .lendec 0x4D) = .ok (.lendec 0x4D) := by decide

theorem test_decode_lenneed : decode (.call .lenneed 45) = .ok (.lenneed 45) := by decide

theorem test_decode_lenchars : decode (.call .lenchars 44) = .ok (.lenchars 44) := by decide

theorem test_decode_tooWide : decode (.call .enc6 64) = .error .operandTooWide ∧ decode (.call .lenneed 46) = .error .countOutOfRange := by decide

/-- The match columns of spec/opcode_table.json. -/
theorem test_table_words : decodeTableWord 16 0xB002 = some .dTgtResfail ∧ decodeTableWord 8 0x20 = some (.lTerm [0x20]) ∧
    decodeTableWord 24 0x656E64 = some .lEnd ∧
    decodeTableWord 48 0x626567696E20 = some (.lBegin [0x62, 0x65, 0x67, 0x69, 0x6E, 0x20] false) := by decide

/-! ## One step each, against the vectors -/

/-- 2.6 sequence A, last row. -/
theorem test_resetE : (after (exec .resetE (encAt .eFail [0x61] [0xFF] .sinkIo))).enc.status = 0x00 := by decide

/-- 2.11: `RESET.D` in `D_WAIT`. -/
theorem test_resetD : (after (exec .resetD (decAt .dWait true true []))).dec.status = 0x000 := by decide

/-- 2.6 sequence C. -/
theorem test_resetAll : (after (exec .resetAll (encAt .eFail [0x61] [0x41] .sourceIo))).enc.status = 0x00 := by decide

/-- R130 example; 2.6 sequence A, row 13. -/
theorem test_eSetmode : (after (exec (.eSetmode 0o644) State.reset)).enc.mode = 0x1A4 ∧
    (after (exec (.eSetmode 0o644) (encAt .eRun [0x61] []))).link.ack = .refused .badState := by decide

/-- 2.6 sequence A, with `NAME_MAX` = 3. -/
theorem test_eNamech : (after (exec (.eNamech 0x63) (encAt .eIdle [0x61, 0x62] []))).enc.nlen = 3 ∧
    (after (exec (.eNamech 0x64) (encAt .eIdle [0x61, 0x62, 0x63] []))).link.ack = .refused .nameFull := by decide

/-- R134: `begin 644 a`; 2.6 sequence A, first row. -/
theorem test_eStart : (after (exec .eStart (encAt .eIdle [0x61] []))).link.eSink =
      [0x62, 0x65, 0x67, 0x69, 0x6E, 0x20, 0x36, 0x34, 0x34, 0x20, 0x61, 0x0A] ∧
    (after (exec .eStart State.reset)).link.ack = .refused .noName := by decide

/-- R135 example; 2.5a: 45 bytes FF. -/
theorem test_eByte : (after (exec (.eByte 0x43) (encAt .eRun [0x61] []))).enc.chunk = [0x43] ∧
    (after (exec (.eByte 0xFF) (encAt .eRun [0x61] (List.replicate 44 0xFF)))).link.eSink =
      [0x4D] ++ List.replicate 60 0x5F ++ [0x0A] := by decide

/-- R137 example; 2.6 sequence B. -/
theorem test_eEof : (after (exec .eEof (encAt .eRun [0x61] [0x2D]))).link.eSink =
      [0x21, 0x2B, 0x30, 0x60, 0x60, 0x0A, 0x60, 0x0A, 0x65, 0x6E, 0x64, 0x0A] ∧
    (after (exec .eEof (encAt .eRun [0x61] []))).link.eSink = [0x60, 0x0A, 0x65, 0x6E, 0x64, 0x0A] := by decide

/-- R139 example; 2.6 sequence B. -/
theorem test_eSinkfail : (after (exec .eSinkfail (encAt .eRun [0x61] [0x41]))).enc.status = 0x1B ∧
    (after (exec .eSinkfail (encAt .eDone [0x61] []))).enc.status = 0x1B := by decide

/-- R140 example. -/
theorem test_eRdfail : (after (exec .eRdfail (encAt .eRun [0x61] []))).enc.status = 0x1F := by decide

/-- R150 example; 2.11. -/
theorem test_dStart : (after (exec (.dStart true) State.reset)).dec.status = 0x009 ∧
    (after (exec (.dStart false) (decAt .dSeek true false []))).link.ack = .refused .badState := by decide

/-- A second session after a header was parsed: nothing of the first is left (R31; program P6). -/
theorem test_dStart_again : (after (exec (.dStart true) { State.reset with
    dec := { state := .dHalt, multi := false, seen := true, anyFail := true, err := .shortFile, mode := 0x1A4,
             name := [0x78], lbuf := [], ovl := false } })).dec =
      { Dec.reset with multi := true, state := .dSeek } := by decide

/-- R151 example. -/
theorem test_dChar_line : (after (exec (.dChar 0x0A) (decAt .dData true true [0x23, 0x30, 0x56, 0x25, 0x54]))).link.dSink =
      [.byte 0x43, .byte 0x61, .byte 0x74] := by decide

/-- `LINE_MAX` = 64: the 65th character is dropped (2.8 F20). -/
theorem test_dChar_overlong : (after (exec (.dChar 0x20) (decAt .dEnd true true (List.replicate 64 0x20)))).dec.ovl = true := by decide

/-- R172 example; 2.8 F3. -/
theorem test_dEof : (after (exec .dEof (decAt .dSeek false false []))).dec.status = 0x065 ∧
    (after (exec .dEof (decAt .dData true true [0x23]))).dec.status = 0x0FD := by decide

/-- P3. -/
theorem test_dTgtOk : (after (exec .dTgtOk (decAt .dWait true true []))).dec.status = 0x01B := by decide

/-- R162 example. -/
theorem test_dTgtIofail : (after (exec .dTgtIofail (decAt .dWait true true []))).dec.status = 0x179 := by decide

/-- 2.8 H4. -/
theorem test_dTgtResfail : (after (exec .dTgtResfail (decAt .dWait false true []))).dec.status = 0x135 := by decide

/-- 2.8 H1. -/
theorem test_dSinkfail : (after (exec .dSinkfail (decAt .dData false true []))).dec.status = 0x1B5 := by decide

/-- 2.8 H5. -/
theorem test_dRdfail : (after (exec .dRdfail (decAt .dSeek true false []))).dec.status = 0x1ED := by decide

/-- 2.10. -/
theorem test_reserved : (after (exec (.reserved 0xF000) State.reset)).link.ack = .refused .badCommand := by decide

/-- 2.7 T15, T17; 2.8 F16 before `D.EOF`. -/
theorem test_lBegin : (after (exec (.lBegin [0x62, 0x65, 0x67, 0x69, 0x6E, 0x20, 0x31, 0x30, 0x30, 0x36, 0x34, 0x34, 0x20, 0x78, 0x20, 0x79] false) (decAt .dSeek true false []))).link.dSink =
      [.hdr 0o644 [0x78]] ∧
    (after (exec (.lBegin [0x62, 0x65, 0x67, 0x69, 0x6E, 0x20, 0x36, 0x34, 0x38, 0x20, 0x78] false) (decAt .dSeek true false []))).dec.status = 0x239 := by decide

/-- 2.8 F18, `NAME_MAX` = 3, in a `D.START 0` session. -/
theorem test_lBegin_longName : (after (exec (.lBegin [0x62, 0x65, 0x67, 0x69, 0x6E, 0x20, 0x36, 0x34, 0x34, 0x20, 0x61, 0x62, 0x63, 0x64] false) (decAt .dSeek false false []))).dec.status = 0x235 := by decide

/-- R154. -/
theorem test_lSkip : (after (exec (.lSkip [] false) (decAt .dSeek true false []))).dec.status = 0x009 := by decide

/-- R165 example. -/
theorem test_lEmpty : (after (exec .lEmpty (decAt .dData true true []))).link.dSink = [.endCode .shortLine] := by decide

/-- P3, third newline. -/
theorem test_lTerm : (after (exec (.lTerm [0x60]) (decAt .dData true true []))).dec.status = 0x01C := by decide

/-- 2.8 F8 before `D.EOF`. -/
theorem test_lBadlen : (after (exec (.lBadlen [0x4E, 0x30]) (decAt .dData true true []))).dec.status = 0x279 := by decide

/-- 2.7 T9, T13. -/
theorem test_lData : (after (exec (.lData [0x22, 0x30, 0x34, 0x28]) (decAt .dData true true []))).link.dSink = [.byte 0x41, .byte 0x42] ∧
    (after (exec (.lData [0x23, 0x61, 0x62, 0x63, 0x64]) (decAt .dData true true []))).link.dSink =
      [.byte 0x04, .byte 0x20, .byte 0xC4] := by decide

/-- 2.8 F11 before `D.EOF`. -/
theorem test_lShort : (after (exec (.lShort [0x22, 0x30, 0x34]) (decAt .dData true true []))).dec.status = 0x2B9 := by decide

/-- R170 example. -/
theorem test_lEnd : (after (exec .lEnd (decAt .dEnd true true []))).dec.status = 0x019 ∧
    (after (exec .lEnd (decAt .dEnd false true []))).link.dSink = [.endCode .ok] := by decide

/-- 2.8 F7a. -/
theorem test_lNoend : (after (exec (.lNoend [0x65, 0x6E, 0x64, 0x0D] false) (decAt .dEnd false true []))).dec.status = 0x0B5 := by decide

/-- 2.1: 0 is the backtick. -/
theorem test_enc6 : (after (exec (.enc6 0) State.reset)).link.fnOut = some (.char 0x60) := by decide

/-- 2.2: no sign extension. -/
theorem test_dec6 : (after (exec (.dec6 0x80) State.reset)).link.fnOut = some (.sextet 32) := by decide

/-- 2.4. -/
theorem test_pack3 : (after (exec (.pack3 0xFF 0x00 0xFF) State.reset)).link.fnOut = some (.quad 0x3F 0x30 0x03 0x3F) := by decide

/-- 2.4. -/
theorem test_pack2 : (after (exec (.pack2 0x41 0x42) State.reset)).link.fnOut = some (.quad 0x10 0x14 0x08 0x00) := by decide

/-- 2.4. -/
theorem test_pack1 : (after (exec (.pack1 0xFF) State.reset)).link.fnOut = some (.quad 0x3F 0x30 0x00 0x00) := by decide

/-- 2.5. -/
theorem test_unpack3 : (after (exec (.unpack3 1 2 3 4) State.reset)).link.fnOut = some (.bytes [0x04, 0x20, 0xC4]) := by decide

/-- 2.5, row 5. -/
theorem test_unpack2 : (after (exec (.unpack2 16 31 63) State.reset)).link.fnOut = some (.bytes [0x41, 0xFF]) := by decide

/-- 2.5, row 5. -/
theorem test_unpack1 : (after (exec (.unpack1 16 31) State.reset)).link.fnOut = some (.bytes [0x41]) := by decide

/-- 2.3. -/
theorem test_lenenc : (after (exec (.lenenc 45) State.reset)).link.fnOut = some (.char 0x4D) := by decide

/-- 2.3. -/
theorem test_lendec : (after (exec (.lendec 0x8E) State.reset)).link.fnOut = some (.counted 46 .bad) := by decide

/-- 2.3. -/
theorem test_lenneed : (after (exec (.lenneed 44) State.reset)).link.fnOut = some (.count 59) := by decide

/-- 2.3. -/
theorem test_lenchars : (after (exec (.lenchars 44) State.reset)).link.fnOut = some (.count 60) := by decide

/-- A step takes the word at the port. -/
theorem test_step_word : (after (step (State.reset.withFetchWord 16 0x3061))).enc.name = [0x61] := by decide

/-- A line placed in the assembler is run by its newline. -/
theorem test_step_line : (after (step (State.reset.withFetchWord 24 0x656E64))).link.dSink = [.endCode .ok] ∧
    (after (step (State.reset.withFetchWord 8 0x20))).dec.state = .dEnd := by decide

/-- A unit whose host sends nothing does nothing (R7). -/
theorem test_step_idle : (after (step State.reset)) = State.reset := by decide

/-! ## Witnesses: the hypotheses of the statements can be met -/

/-- The last byte that fits and the first that does not. -/
theorem witness_nameCharAppendsUntilFull : (encAt .eIdle [0x61, 0x62] []).enc.nlen + 1 = tight.nameMax ∧ (encAt .eIdle [0x61, 0x62, 0x63] []).enc.nlen = tight.nameMax := by decide

theorem witness_byteEmitsLineAtFortyFifth : (encAt .eRun [0x61] (List.replicate 44 0)).enc.cnt + 1 = 45 ∧ (encAt .eRun [0x61] (List.replicate 43 0)).enc.cnt + 1 = 44 := by decide

/-- Shortest and longest chunk: `DataLineIsTheIndexedLoop`, `DataLineShape`, `EncodedLineDecodesToItsChunk`. -/
theorem witness_dataLines : 1 ≤ ([0x41] : List Byte).length ∧ (List.replicate 45 (0x41 : Byte)).length ≤ 45 := by decide

/-- The last character that fits and the first that does not. -/
theorem witness_charEntersTheLineBuffer : (0x41 : Byte) ≠ 0x0A ∧ (decAt .dEnd true true (List.replicate 63 0x20)).dec.state = .dEnd ∧
    (decAt .dEnd true true (List.replicate 63 0x20)).dec.llen < 64 ∧ tight.lineMax = some 64 ∧
    64 ≤ (decAt .dEnd true true (List.replicate 64 0x20)).dec.llen := by decide

theorem witness_newlineRunsTheDecodedLine : decodeLine (decAt .dEnd true true [0x65, 0x6E, 0x64]).dec.state (decAt .dEnd true true [0x65, 0x6E, 0x64]).dec.lbuf
      (decAt .dEnd true true [0x65, 0x6E, 0x64]).dec.ovl = .ok .lEnd := by decide

theorem witness_startForgetsTheLastSession : (decAt .dIdle false false []).dec.state = .dIdle ∧
    (decAt .dHalt true true []).dec.state = .dHalt := by decide

theorem witness_charOutsideASession : (decAt .dIdle false false []).dec.state = .dIdle ∧ (decAt .dWait false true []).dec.state = .dWait ∧ (decAt .dHalt false true []).dec.state = .dHalt := by decide

/-- A line one character too long. -/
theorem witness_lineByCharactersIsOneLine : (0x0A : Byte) ∉ List.replicate 65 (0x20 : Byte) ∧ (decAt .dEnd true true []).dec.lbuf = [] ∧
    keptLine tight (List.replicate 65 0x20) = (List.replicate 64 0x20, true) ∧
    decodeLine .dEnd (List.replicate 64 0x20) true = .ok (.lNoend (List.replicate 64 0x20) true) := by decide

theorem witness_hostAnswersTheHeader : (decAt .dWait true true []).dec.state = .dWait ∧ (decAt .dData true true []).dec.state ≠ .dWait := by decide

/-- Counts 0, 1, 45, 46, 63. -/
theorem witness_lineMapRows : (lendec 0x60).2 = .zero ∧ (lendec 0x21).2 = .data ∧ (lendec 0x4D).2 = .data ∧ (lendec 0x4E).2 = .bad ∧ (lendec 0x5F).2 = .bad := by decide

/-- `begin` alone (2.8 F2c). -/
theorem witness_skippedLineChangesNothing : (decAt .dSeek true false []).dec.state = .dSeek ∧ ¬ (6 ≤ ([0x62, 0x65, 0x67, 0x69, 0x6E] : List Byte).length) := by decide

/-- A header that parses with a name of `NAME_MAX` bytes, one token, a byte 0x38, a name one byte too long. -/
theorem witness_beginLineParsesOrFaults : tokens ([0x62, 0x65, 0x67, 0x69, 0x6E, 0x20, 0x36, 0x34, 0x34, 0x20, 0x61, 0x62, 0x63].drop 6) = [[0x36, 0x34, 0x34], [0x61, 0x62, 0x63]] ∧
    ([0x61, 0x62, 0x63] : List Byte).length ≤ tight.nameMax ∧
    tokens ([0x62, 0x65, 0x67, 0x69, 0x6E, 0x20, 0x36, 0x34, 0x34].drop 6) = [[0x36, 0x34, 0x34]] ∧
    (0x37 < (0x38 : Byte).toNat) ∧ tight.nameMax < ([0x61, 0x62, 0x63, 0x64] : List Byte).length := by decide

theorem witness_modeIsTheNumeral : isOctal 0x30 = true ∧ isOctal 0x37 = true ∧ modeOf [0x31, 0x30, 0x30, 0x36, 0x34, 0x34] = 0o644 := by decide

/-- Clauses at their bounds: 0, 46, and 45 with one character too few. -/
theorem witness_dataSectionEndsOrFaults : (decAt .dData true true []).dec.state = .dData ∧ (dec6 0xE0).toNat = 0 ∧ (dec6 0x4E).toNat = 46 ∧
    (dec6 0x4D).toNat = 45 ∧ lenneed (dec6 0x4D) = 59 + 1 := by decide

theorem witness_dataLineEmitsItsBytes : (dec6 0x4D).toNat = 45 ∧ lenneed (dec6 0x4D) ≤ (List.replicate 60 (0x60 : Byte)).length ∧
    (dec6 0x21).toNat = 1 ∧ lenneed (dec6 0x21) ≤ ([0x30, 0x30] : List Byte).length := by decide

theorem witness_trailerEndsOrFaults : (decAt .dEnd true true []).dec.state = .dEnd ∧ ¬ (([] : List Byte) = [0x65, 0x6E, 0x64] ∧ false = false) := by decide

theorem witness_unselectedLineIsRefused : Instr.wf (.lTerm [0x60]) = true ∧ encode (.lTerm [0x60]) = .line .dData [0x60] false ∧
    lineKind (decAt .dEnd true true []).dec.state [0x60] false ≠ lineKind .dData [0x60] false := by decide

/-- The padding bits differ (2.5 rows 5 and 6). -/
theorem witness_packAndUnpackAreInverse : (0x08 : Sextet) >>> 2 = (0x0B : Sextet) >>> 2 ∧ (0x10 : Sextet) >>> 4 = (0x1F : Sextet) >>> 4 := by decide

theorem witness_neededCharsAreAtMostEmitted : 1 ≤ (1 : Sextet).toNat ∧ (45 : Sextet).toNat ≤ 45 := by decide

theorem witness_decodeUndoesEncode : Instr.wf (.lData [0x21, 0x30, 0x30]) = true ∧ Instr.wf (.reserved 0xB003) = true ∧ Instr.wf (.lenneed 45) = true := by decide

theorem witness_decoderAcceptsOnlyWellFormed : decode (.line .dData [0x4D] true) = .ok (.lShort [0x4D]) := by decide

theorem witness_stepRunsTheDecodedCommand : (State.reset.withFetchWord 16 0x8001).link.port = [0x8001] ∧ State.reset.link.port = [] := by decide

/-- A state with the invariant whose step answers a next state. -/
theorem witness_stepKeepsTheInvariant : State.Inv (State.reset.withFetchWord 16 0x8001) ∧
    (after (step (State.reset.withFetchWord 16 0x8001))).dec.status = 0x009 := by decide

theorem witness_invariantHoldsAtReset : tight.ok = true ∧ Params.ok { nameMax := 1, lineMax := none } = true := by decide

theorem witness_outputIsNeverRetracted : (afterAll [.eStart, .eEof] (encAt .eIdle [0x61] [])).link.eSink.length = 18 := by decide

theorem witness_faultsAreReportedOnce : (after (exec .dEof (decAt .dSeek true false []))).link.dSink = [.endCode .noBegin] := by decide

theorem witness_unitsAreIndependent : ∀ i ∈ [Instr.eStart, .dStart true, .eByte 0x41, .dChar 0x0A], i.forEnc = true ∨ i.forDec = true := by decide

theorem witness_encoderSession : State.reset.enc.state = .eIdle ∧ State.reset.enc.name = [] ∧ ([0x78] : List Byte).length ≤ State.reset.params.nameMax := by decide

/-- Also `FailedTargetIsIsolated`. -/
theorem witness_streamDecodesInAnySession : tight.ok = true ∧ nameOk tight 0o777 [0x61, 0x62, 0x63] = true ∧ (decAt .dSeek true false []).dec.state = .dSeek ∧
    (decAt .dSeek true false []).dec.multi = true ∧ (decAt .dSeek true false []).dec.lbuf = [] ∧
    (decAt .dSeek true false []).dec.ovl = false := by decide

theorem witness_roundTrip : Params.suggested.ok = true ∧ nameOk Params.suggested 0o7 [0x78] = true ∧ State.reset.enc.state = .eIdle ∧
    State.reset.enc.name = [] ∧ State.reset.dec.state = .dIdle := by decide

/-- Program P5. -/
theorem witness_roundTrip_runs : (afterAll (decodeSession true (headerLine 0o7 [0x78]) (streamBody [0x00, 0xFF])) State.reset).link.dSink =
      [.hdr 0o7 [0x78], .byte 0x00, .byte 0xFF, .endCode .ok] := by decide

end Sys2Proof.Tests
end

/-! Proofs of the statements of 00_scope.md: the step (O42) and the round trip (O57). Every command is described once,
by the state it leaves as a `State.performedWith`; runs compose by `runAll_append_of_next`, and the outputs of their
parts are joined by `performedWith_performedWith`. -/

namespace Sys2Proof.Proofs

open Sys2Proof.Machine

/-! ## The step: O42 -/

section Step

variable {s : State}

/-- A row of a decoding table passes on well-formedness: its own instruction is well formed, and so is what the
remaining rows give where it is not selected. -/
theorem wellFormed_ite {c : Prop} [Decidable c] {i j : Instr} (hi : i.WellFormed) (hj : ¬c → j.WellFormed) :
    (if c then i else j).WellFormed := by
  split
  case isTrue => exact hi
  case isFalse hc => exact hj hc

/-- Every word decodes to a well-formed instruction: an operand of a command row is whatever its field admits, and the
reserved case is reached only past all the rows of R78. -/
theorem decodeWord_wellFormed (w : Word) : (decodeWord w).WellFormed := by
  unfold decodeWord
  iterate 18 refine wellFormed_ite rfl fun _ => ?_
  simp_all [Instr.WellFormed, Instr.wf, isCommand, commandRows]

/-- A unit whose host sends nothing does nothing. -/
theorem step_of_port_nil (h : s.link.port = []) : step s = .next s := by
  simp [step, fetch, h]

/-- The next word leaves the port and its instruction runs. -/
theorem step_of_port_cons {w : Word} {rest : List Word} (h : s.link.port = w :: rest) :
    step s = exec (decodeWord w) (s.setPort rest) := by
  simp [step, fetch, h]

end Step

/-- Settles O42. -/
theorem stepRunsTheDecodedCommand : Obligations.StepRunsTheDecodedCommand := fun _ =>
  ⟨step_of_port_nil, fun w _ h => ⟨decodeWord_wellFormed w, step_of_port_cons h⟩⟩

/-! ## Performed commands and runs -/

section PerformedWith

variable (s : State) (e e' : Enc) (d d' : Dec) (cs cs' : List Byte) (ys ys' : List DSym)

@[simp] theorem performedWith_enc : (s.performedWith e d cs ys).enc = e := rfl
@[simp] theorem performedWith_dec : (s.performedWith e d cs ys).dec = d := rfl
@[simp] theorem performedWith_params : (s.performedWith e d cs ys).params = s.params := rfl
@[simp] theorem performedWith_eSink : (s.performedWith e d cs ys).link.eSink = s.link.eSink ++ cs := rfl
@[simp] theorem performedWith_dSink : (s.performedWith e d cs ys).link.dSink = s.link.dSink ++ ys := rfl

/-- Of two performed commands the later gives the registers, and both give their output. -/
@[simp] theorem performedWith_performedWith :
    (s.performedWith e d cs ys).performedWith e' d' cs' ys' = s.performedWith e' d' (cs ++ cs') (ys ++ ys') := by
  simp [State.performedWith]

/-! The writes of a command are absorbed by the state it leaves. -/

@[simp] theorem setEnc_performedWith : (s.setEnc e').performedWith e d cs ys = s.performedWith e d cs ys := rfl
@[simp] theorem setDec_performedWith : (s.setDec d').performedWith e d cs ys = s.performedWith e d cs ys := rfl
@[simp] theorem eOutStr_performedWith :
    (s.eOutStr cs').performedWith e d cs ys = s.performedWith e d (cs' ++ cs) ys := by
  simp [State.performedWith, State.eOutStr]
@[simp] theorem dOutAll_performedWith :
    (s.dOutAll ys').performedWith e d cs ys = s.performedWith e d cs (ys' ++ ys) := by
  simp [State.performedWith, State.dOutAll]

/-- What `done` answers, in the form the statements use. With the absorption lemmas this turns a chain of writes into
one `performedWith`. -/
theorem done_eq_performedWith : done s = .next (s.performedWith s.enc s.dec [] []) := by
  simp [done, State.performedWith, State.setAck]

end PerformedWith

section RunAll

variable {i : Instr} {is : List Instr} {s t : State}

theorem runAll_singleton (i : Instr) (s : State) : runAll [i] s = exec i s := by
  cases h : exec i s <;> simp [runAll, h]

/-- A run whose first instruction is performed goes on from the state it leaves. -/
theorem runAll_cons_of_next (h : exec i s = .next t) (js : List Instr) : runAll (i :: js) s = runAll js t := by
  simp [runAll, h]

/-- A run whose first part goes through goes on from the state that part leaves. -/
theorem runAll_append_of_next (h : runAll is s = .next t) (js : List Instr) :
    runAll (is ++ js) s = runAll js t := by
  induction is generalizing s with
  | nil => cases h; rfl
  | cons i is ih =>
    cases hi : exec i s with
    | next s' =>
      rw [runAll_cons_of_next hi] at h
      rw [List.cons_append, runAll_cons_of_next hi, ih h]
    | fault r => simp [runAll, hi] at h
    | refused r => simp [runAll, hi] at h

end RunAll

/-! ## The data lines of a source, one chunk at a time -/

/-- Less than a whole chunk is one line, or none when it is empty. -/
theorem dataLines_of_length_lt {C : List Byte} (h : C.length < 45) :
    dataLines C = if C = [] then [] else dataLine C := by
  simp [dataLines, Nat.div_eq_of_lt h, Nat.mod_eq_of_lt h]

theorem dataLines_nil : dataLines [] = [] := rfl

/-- The first whole chunk is the first line. -/
theorem dataLines_append_of_length_eq {C : List Byte} (h : C.length = 45) (B : List Byte) :
    dataLines (C ++ B) = dataLine C ++ dataLines B := by
  have hdiv : (45 + B.length) / 45 = B.length / 45 + 1 := by omega
  have hdrop (k : Nat) : (C ++ B).drop (45 * (k + 1)) = B.drop (45 * k) := by
    rw [List.drop_append, List.drop_of_length_le (by omega), h]
    congr 1
  have htake : (C ++ B).take 45 = C := by rw [List.take_append, h]; simp [← h]
  simp [dataLines, h, hdiv, List.range_succ_eq_map, List.flatMap_map, hdrop, htake]

/-- Induction over a source as the encoder cuts it: a chunk, whole or the last, and the lines of what follows it. -/
theorem dataLines_induction {motive : List Byte → Prop} (empty : motive [])
    (chunk : ∀ C B : List Byte, C ≠ [] → C.length ≤ 45 → dataLines (C ++ B) = dataLine C ++ dataLines B →
      motive B → motive (C ++ B)) (B : List Byte) : motive B := by
  induction hn : B.length using Nat.strong_induction_on generalizing B with
  | _ n ih =>
    by_cases hB : B = []
    · exact hB ▸ empty
    by_cases h : B.length < 45
    · have hline : dataLines (B ++ []) = dataLine B ++ dataLines [] := by
        simp [dataLines_of_length_lt h, hB, dataLines_nil]
      simpa using chunk B [] hB h.le hline empty
    · have hfirst : (B.take 45).length = 45 := by simp; omega
      rw [← List.take_append_drop 45 B]
      exact chunk _ _ (List.ne_nil_of_length_eq_add_one hfirst) hfirst.le (dataLines_append_of_length_eq hfirst _)
        (ih _ (by simp; omega) _ rfl)

/-! ## An encoder session -/

section Encoder

variable {s : State}

theorem exec_eSetmode_of_idle (h : s.enc.state = .eIdle) (m : Mode) :
    exec (.eSetmode m) s = .next (s.performedWith { s.enc with mode := m } s.dec [] []) := by
  simp [exec, execESetmode, h, done_eq_performedWith]

theorem exec_eNamech_of_room (h : s.enc.state = .eIdle) (hroom : s.enc.name.length < s.params.nameMax) (c : Byte) :
    exec (.eNamech c) s = .next (s.performedWith { s.enc with name := s.enc.name ++ [c] } s.dec [] []) := by
  simp [exec, execENamech, h, Enc.nlen, hroom, done_eq_performedWith]

theorem exec_eStart_of_name (h : s.enc.state = .eIdle) (hname : s.enc.name ≠ []) :
    exec .eStart s = .next (s.performedWith { s.enc with chunk := [], state := .eRun } s.dec
      (headerLine s.enc.mode s.enc.name) []) := by
  simp [exec, execEStart, h, Enc.nlen, hname, done_eq_performedWith]

/-- The 45th byte of a chunk emits its line. -/
theorem exec_eByte_of_last (h : s.enc.state = .eRun) (hlast : s.enc.chunk.length + 1 = 45) (b : Byte) :
    exec (.eByte b) s =
      .next (s.performedWith { s.enc with chunk := [] } s.dec (dataLine (s.enc.chunk ++ [b])) []) := by
  simp [exec, execEByte, h, storeByte, Enc.cnt, hlast, Config.lineBytes, emitChunk, done_eq_performedWith]

/-- Any other byte only enters the chunk. -/
theorem exec_eByte_of_not_last (h : s.enc.state = .eRun) (hlast : s.enc.chunk.length + 1 ≠ 45) (b : Byte) :
    exec (.eByte b) s = .next (s.performedWith { s.enc with chunk := s.enc.chunk ++ [b] } s.dec [] []) := by
  simp [exec, execEByte, h, storeByte, Enc.cnt, hlast, Config.lineBytes, done_eq_performedWith]

/-- `E.EOF` emits the line of what is left of the source, the terminator and the trailer. -/
theorem exec_eEof_of_run (h : s.enc.state = .eRun) (hlen : s.enc.chunk.length < 45) :
    exec .eEof s = .next (s.performedWith { s.enc with chunk := [], state := .eDone } s.dec
      (streamBody s.enc.chunk) []) := by
  by_cases hc : s.enc.chunk = [] <;>
    simp [exec, execEEof, h, finishStream, flushChunk, emitChunk, Enc.cnt, streamBody, dataLines_of_length_lt hlen,
      List.length_pos_iff, hc, dataLines_nil, done_eq_performedWith]

/-- The bytes of a name, loaded one by one. -/
theorem runAll_eNamech {N : List Byte} (hN : N ≠ []) (h : s.enc.state = .eIdle)
    (hroom : s.enc.name.length + N.length ≤ s.params.nameMax) :
    runAll (N.map .eNamech) s = .next (s.performedWith { s.enc with name := s.enc.name ++ N } s.dec [] []) := by
  induction N generalizing s with
  | nil => exact absurd rfl hN
  | cons c N ih =>
    have hc := exec_eNamech_of_room h (by simp at hroom; omega) c
    rw [List.map_cons, runAll_cons_of_next hc]
    by_cases hN' : N = []
    · simp [hN', runAll]
    · rw [ih hN' (by exact h) (by simp at hroom ⊢; omega)]
      simp

/-- The bytes of a source after a chunk that is not yet whole, and the end of the source. -/
theorem runAll_eByte_eEof (B : List Byte) (h : s.enc.state = .eRun) (hlen : s.enc.chunk.length < 45) :
    runAll (B.map .eByte ++ [.eEof]) s = .next (s.performedWith { s.enc with chunk := [], state := .eDone } s.dec
      (streamBody (s.enc.chunk ++ B)) []) := by
  induction B generalizing s with
  | nil => simpa [runAll_singleton] using exec_eEof_of_run h hlen
  | cons b B ih =>
    rw [List.map_cons, List.cons_append]
    by_cases hlast : s.enc.chunk.length + 1 = 45
    · rw [runAll_cons_of_next (exec_eByte_of_last h hlast b), ih (by exact h) (by simp)]
      have hline := dataLines_append_of_length_eq (C := s.enc.chunk ++ [b]) (by simpa using hlast) B
      rw [List.append_assoc, List.singleton_append] at hline
      simp [streamBody, hline]
    · rw [runAll_cons_of_next (exec_eByte_of_not_last h hlast b), ih (by exact h) (by simp; omega)]
      simp

/-- A whole encoder session emits the header and the body of the stream (43_encoder_frame.md R142). -/
theorem runAll_encodeSession {m : Mode} {N : List Byte} (B : List Byte) (h : s.enc.state = .eIdle)
    (hname : s.enc.name = []) (hN : N ≠ []) (hroom : N.length ≤ s.params.nameMax) :
    runAll (encodeSession m N B) s =
      .next (s.performedWith { state := .eDone, mode := m, name := N, chunk := [], err := s.enc.err } s.dec
        (headerLine m N ++ streamBody B) []) := by
  have hmode := exec_eSetmode_of_idle h m
  have hload := runAll_eNamech (s := s.performedWith { s.enc with mode := m } s.dec [] []) hN h
    (by simpa [hname] using hroom)
  simp only [encodeSession, List.append_assoc, List.cons_append, List.nil_append]
  rw [runAll_cons_of_next hmode, runAll_append_of_next hload,
    runAll_cons_of_next (exec_eStart_of_name (by exact h) (by simp [hN])), runAll_eByte_eEof B rfl (by simp)]
  simp [hname]

end Encoder

/-! ## The text of a stream: header -/

/-- The header line without its newline. -/
def headerText (m : Mode) (N : List Byte) : List Byte := Config.beginTag ++ octal m ++ [Config.space] ++ N

theorem headerLine_eq (m : Mode) (N : List Byte) : headerLine m N = headerText m N ++ [Config.newline] := rfl

section Octal

theorem isSpace_octalDigit : ∀ d : BitVec 3, isSpace (octalDigit d) = false := by decide

theorem isOctal_octalDigit : ∀ d : BitVec 3, isOctal (octalDigit d) = true := by decide

/-- The numeral is the three octal digits of the mode without leading zeros (43_encoder_frame.md R132). -/
theorem octal_cases (m : Mode) :
    octal m = [octalDigit (m.extractLsb' 6 3), octalDigit (m.extractLsb' 3 3), octalDigit (m.extractLsb' 0 3)] ∨
    (m.extractLsb' 6 3 = 0 ∧ octal m = [octalDigit (m.extractLsb' 3 3), octalDigit (m.extractLsb' 0 3)]) ∨
    (m.extractLsb' 6 3 = 0 ∧ m.extractLsb' 3 3 = 0 ∧ octal m = [octalDigit (m.extractLsb' 0 3)]) := by
  simp only [octal]
  split_ifs with h2 h1
  · exact .inl rfl
  · exact .inr (.inl ⟨not_not.1 h2, rfl⟩)
  · exact .inr (.inr ⟨not_not.1 h2, not_not.1 h1, rfl⟩)

theorem octal_ne_nil (m : Mode) : octal m ≠ [] := by
  obtain h | ⟨-, h⟩ | ⟨-, -, h⟩ := octal_cases m <;> simp [h]

theorem exists_octalDigit_of_mem_octal {m : Mode} : ∀ c ∈ octal m, ∃ d, c = octalDigit d := by
  obtain h | ⟨-, h⟩ | ⟨-, -, h⟩ := octal_cases m <;> simp [h]

theorem isSpace_of_mem_octal {m : Mode} {c : Byte} (h : c ∈ octal m) : isSpace c = false := by
  obtain ⟨d, rfl⟩ := exists_octalDigit_of_mem_octal c h
  exact isSpace_octalDigit d

/-- A digit of the numeral enters the low three bits of the accumulator. -/
theorem modeStep_octalDigit (m : Mode) (d : BitVec 3) : modeStep m (octalDigit d) = m <<< 3 ||| d.setWidth 9 := by
  have hd : ∀ d : BitVec 3, (octalDigit d - 0x30#8).setWidth 9 = d.setWidth 9 := by decide
  rw [modeStep, hd]

/-- A leading zero leaves the accumulator 0, so the digits `octal` drops do not count. -/
theorem modeStep_zero : modeStep 0#9 (octalDigit 0#3) = 0#9 := by decide

/-- The three octal digits of a mode, leading zeros and all, are read back as the mode. -/
theorem modeOf_three_digits (m : Mode) :
    modeOf [octalDigit (m.extractLsb' 6 3), octalDigit (m.extractLsb' 3 3), octalDigit (m.extractLsb' 0 3)] = m := by
  simp only [modeOf, List.foldl_cons, List.foldl_nil, modeStep_octalDigit]
  ext i hi
  interval_cases i <;> simp

theorem modeOf_octal (m : Mode) : modeOf (octal m) = m := by
  have hthree := modeOf_three_digits m
  obtain h | ⟨h2, h⟩ | ⟨h2, h1, h⟩ := octal_cases m
  · rw [h, hthree]
  · simpa [h, h2, modeOf, modeStep_zero] using hthree
  · simpa [h, h2, h1, modeOf, modeStep_zero] using hthree

end Octal

section Tokens

/-- Bytes that are not whitespace join the token being read. -/
theorem tokensFrom_append {T : List Byte} (h : ∀ x ∈ T, isSpace x = false) (cur S : List Byte) :
    tokensFrom cur (T ++ S) = tokensFrom (cur ++ T) S := by
  induction T generalizing cur with
  | nil => simp
  | cons x T ih =>
    obtain ⟨hx, hT⟩ := List.forall_mem_cons.1 h
    simp [tokensFrom, hx, ih hT]

/-- Two words with one space between them are two tokens. -/
theorem tokens_pair {M N : List Byte} (hM : ∀ x ∈ M, isSpace x = false) (hN : ∀ x ∈ N, isSpace x = false)
    (hM0 : M ≠ []) (hN0 : N ≠ []) : tokens (M ++ [Config.space] ++ N) = [M, N] := by
  have hspace : isSpace Config.space = true := by decide
  have hlast : tokensFrom [] N = [N] := by
    simpa [tokensFrom, flushToken, hN0] using tokensFrom_append hN [] []
  simp [tokens, tokensFrom_append hM, tokensFrom, hspace, hlast, flushToken, hM0]

end Tokens

section Header

variable {m : Mode} {N : List Byte}

/-- What the encoder writes as a header the parser reads as the same mode and name. -/
theorem parseHeader_headerText {nameMax : Nat} (hN : N ≠ []) (hspace : ∀ x ∈ N, isSpace x = false)
    (hlen : N.length ≤ nameMax) : parseHeader nameMax (headerText m N) false = some (m, N) := by
  have htok : tokens ((headerText m N).drop 6) = [octal m, N] :=
    tokens_pair (fun _ => isSpace_of_mem_octal) hspace (octal_ne_nil m) hN
  have hoct : (octal m).all isOctal = true := by
    refine List.all_eq_true.2 fun c hc => ?_
    obtain ⟨d, rfl⟩ := exists_octalDigit_of_mem_octal c hc
    exact isOctal_octalDigit d
  simp [parseHeader, htok, hoct, modeOf_octal, Nat.not_lt.2 hlen]

theorem lineKind_headerText : lineKind .dSeek (headerText m N) false = some .lBegin := by
  simp [lineKind, headerText, Config.beginTag]

/-- A newline is whitespace, so a header text holds none. -/
theorem newline_notMem_headerText (hspace : ∀ x ∈ N, isSpace x = false) : Config.newline ∉ headerText m N := by
  have hnl : isSpace Config.newline = true := by decide
  have hM : Config.newline ∉ octal m := fun h => by simp [isSpace_of_mem_octal h] at hnl
  have hN : Config.newline ∉ N := fun h => by simp [hspace _ h] at hnl
  have htag : Config.newline ∉ Config.beginTag ∧ Config.newline ≠ Config.space := by decide
  simp [headerText, hM, hN, htag]

end Header

/-! ## The text of a stream: data lines -/

/-- A data line without its newline. -/
def dataText (C : List Byte) : List Byte := lenenc (countSextet C.length) :: groupChars C

theorem dataLine_eq (C : List Byte) : dataLine C = dataText C ++ [Config.newline] := rfl

section Characters

theorem dec6_enc6 : ∀ v : Sextet, dec6 (enc6 v) = v := by decide

theorem enc6_ne_newline : ∀ v : Sextet, enc6 v ≠ Config.newline := by decide

end Characters

section Packing

variable (b0 b1 b2 : Byte)

/-! Unpacking the sextets of a group gives its bytes back, each byte from the two sextets that hold its bits
(41_pack34.md R106). -/

theorem unpackO0_pack3 : unpackO0 (pack3 b0 b1 b2).s0 (pack3 b0 b1 b2).s1 = b0 := by
  ext i hi
  interval_cases i <;> simp [unpackO0, pack3, toByte, toSextet, wide]

theorem unpackO1_pack3 : unpackO1 (pack3 b0 b1 b2).s1 (pack3 b0 b1 b2).s2 = b1 := by
  ext i hi
  interval_cases i <;> simp [unpackO1, pack3, toByte, toSextet, wide]

theorem unpackO2_pack3 : unpackO2 (pack3 b0 b1 b2).s2 (pack3 b0 b1 b2).s3 = b2 := by
  ext i hi
  interval_cases i <;> simp [unpackO2, pack3, toByte, toSextet, wide]

end Packing

section Groups

theorem groupChars_length (C : List Byte) : (groupChars C).length = 4 * ((C.length + 2) / 3) := by
  induction C using groupChars.induct with
  | case1 => rfl
  | case2 b0 => simp [groupChars, quadChars]
  | case3 b0 b1 => simp [groupChars, quadChars]
  | case4 b0 b1 b2 rest ih =>
    simp only [groupChars, quadChars, List.length_append, List.length_cons, List.length_nil, ih]
    omega

theorem newline_notMem_quadChars (q : Quad) : Config.newline ∉ quadChars q := by
  simp [quadChars, (enc6_ne_newline _).symm]

theorem newline_notMem_groupChars (C : List Byte) : Config.newline ∉ groupChars C := by
  induction C using groupChars.induct with
  | case1 => simp [groupChars]
  | case2 b0 => exact newline_notMem_quadChars _
  | case3 b0 b1 => exact newline_notMem_quadChars _
  | case4 b0 b1 b2 rest ih => simp [groupChars, newline_notMem_quadChars, ih]

/-- The groups the encoder writes for a chunk, read for the count of the chunk, are the chunk; of a last group that is
not whole only the bytes that are there come back. -/
theorem dataBytes_groupChars (C : List Byte) : dataBytes C.length (groupChars C) = C := by
  induction C using groupChars.induct with
  | case1 => rfl
  | case2 b0 => simp [groupChars, quadChars, dataBytes, dec6_enc6, pack1, unpack1, unpackO0_pack3]
  | case3 b0 b1 =>
    simp [groupChars, quadChars, dataBytes, dec6_enc6, pack2, unpack2, unpackO0_pack3, unpackO1_pack3]
  | case4 b0 b1 b2 rest ih =>
    simp [groupChars, quadChars, dataBytes, dec6_enc6, unpack3, unpackO0_pack3, unpackO1_pack3, unpackO2_pack3, ih]

end Groups

section DataText

variable {C : List Byte}

theorem toNat_countSextet {n : Nat} (h : n ≤ 45) : (countSextet n).toNat = n := by
  simp [countSextet]
  omega

theorem lendec_lenenc (n : Sextet) : lendec (lenenc n) = (n, lenClass n) := by
  simp [lendec, lenenc, dec6_enc6]

/-- The encoder writes whole groups, so the decoder never finds too few characters (42_linelen.md R125). -/
theorem lenneed_le_length_groupChars (hpos : C ≠ []) (hlen : C.length ≤ 45) :
    lenneed (countSextet C.length) ≤ (groupChars C).length := by
  have hpos' := List.length_pos_iff.2 hpos
  have hok : countOk (countSextet C.length) = true := by
    simpa [countOk, toNat_countSextet hlen, Config.lineBytes, hlen] using Nat.one_le_iff_ne_zero.2 hpos'.ne'
  have hrest : 4 * (C.length / 3) + restChars (C.length % 3) ≤ 4 * ((C.length + 2) / 3) := by
    obtain h | h | h : C.length % 3 = 0 ∨ C.length % 3 = 1 ∨ C.length % 3 = 2 := by omega
    all_goals
      simp only [h, restChars]
      omega
  simp only [lenneed, hok, if_true, toNat_countSextet hlen, groupChars_length, Config.groupChars,
    Config.groupBytes, hrest]

theorem lineKind_dataText (hpos : C ≠ []) (hlen : C.length ≤ 45) :
    lineKind .dData (dataText C) false = some .lData := by
  have hclass : lenClass (countSextet C.length) = .data := by
    simp [lenClass, toNat_countSextet hlen, hpos, Config.lineBytes, hlen]
  simp [lineKind, dataKind, dataText, lendec_lenenc, hclass, lenneed_le_length_groupChars hpos hlen]

theorem lineBytes_dataText (hlen : C.length ≤ 45) : lineBytes (dataText C) = C := by
  simp [lineBytes, dataText, lendec_lenenc, toNat_countSextet hlen, dataBytes_groupChars]

theorem newline_notMem_dataText (C : List Byte) : Config.newline ∉ dataText C := by
  simp [dataText, lenenc, (enc6_ne_newline _).symm, newline_notMem_groupChars]

theorem length_dataText_le (hlen : C.length ≤ 45) : (dataText C).length ≤ 64 := by
  simp only [dataText, List.length_cons, groupChars_length]
  omega

end DataText

/-! ## A line fed to the parser -/

/-- The parser states in which a character enters the line assembler (44_decoder_frame.md R151). -/
def readsChars (st : DState) : Prop := st = .dSeek ∨ st = .dData ∨ st = .dEnd

/-- `n` characters fit the line assembler. -/
def lineFits (p : Params) (n : Nat) : Prop := ∀ k, p.lineMax = some k → n ≤ k

section Feed

variable {s : State} {L : List Byte}

theorem exec_dChar_of_readsChars (h : readsChars s.dec.state) (c : Byte) : exec (.dChar c) s = takeChar c s := by
  obtain h | h | h := h <;> simp [exec, execDChar, h]

theorem lineHasRoom_of_lineFits {p : Params} {lbuf : List Byte} (h : lineFits p (lbuf.length + 1)) :
    lineHasRoom p lbuf = true := by
  unfold lineHasRoom
  split
  next => rfl
  next k hk => simpa using h k hk

/-- 64 characters fit wherever the bound meets its constraint (00_scope.md R6). -/
theorem lineFits_of_le {p : Params} {n : Nat} (hp : p.ok = true) (hn : n ≤ 64) : lineFits p n := by
  intro k hk
  simp [Params.ok, hk] at hp
  omega

theorem lineClear_iff {d : Dec} : d.lineClear = true ↔ d.lbuf = [] ∧ d.ovl = false := by
  simp [Dec.lineClear, Dec.llen]

/-- One character that is no newline and has room. -/
theorem exec_dChar_of_room {c : Byte} (hc : c ≠ Config.newline) (hst : readsChars s.dec.state)
    (hfit : lineFits s.params (s.dec.lbuf.length + 1)) :
    exec (.dChar c) s = .next (s.performedWith s.enc { s.dec with lbuf := s.dec.lbuf ++ [c] } [] []) := by
  simp [exec_dChar_of_readsChars hst, takeChar, hc, assemble, lineHasRoom_of_lineFits hfit, done_eq_performedWith]

/-- The newline takes the assembled line. -/
theorem exec_dChar_newline (hst : readsChars s.dec.state) :
    exec (.dChar Config.newline) s = runLine s.dec.lbuf s.dec.ovl (clearLine s) := by
  simp [exec_dChar_of_readsChars hst, takeChar]

/-- The characters of a line that fits enter the assembler in order. -/
theorem runAll_dChar (hL : L ≠ []) (hnl : Config.newline ∉ L) (hst : readsChars s.dec.state)
    (hfit : lineFits s.params (s.dec.lbuf.length + L.length)) :
    runAll (L.map .dChar) s = .next (s.performedWith s.enc { s.dec with lbuf := s.dec.lbuf ++ L } [] []) := by
  induction L generalizing s with
  | nil => exact absurd rfl hL
  | cons c L ih =>
    obtain ⟨hc, hnl'⟩ := List.ne_and_not_mem_of_not_mem_cons hnl
    have hchar := exec_dChar_of_room (Ne.symm hc) hst fun k hk => by
      have := hfit k hk
      simp at this
      omega
    rw [List.map_cons, runAll_cons_of_next hchar]
    by_cases hL' : L = []
    · simp [hL', runAll]
    · rw [ih hL' hnl' (by exact hst) (by simpa [Nat.add_assoc, Nat.add_comm 1] using hfit)]
      simp

/-- A line given whole to an empty assembler is run as that line (44_decoder_frame.md R151). -/
theorem runAll_line (hL : L ≠ []) (hnl : Config.newline ∉ L) (hst : readsChars s.dec.state)
    (hfit : lineFits s.params L.length) (hclear : s.dec.lineClear = true) :
    runAll ((L ++ [Config.newline]).map .dChar) s = runLine L false (s.performedWith s.enc s.dec [] []) := by
  obtain ⟨hbuf, hovl⟩ := lineClear_iff.1 hclear
  have hchars := runAll_dChar hL hnl hst (by simpa [hbuf] using hfit)
  have hclean : clearLine (s.performedWith s.enc { s.dec with lbuf := L } [] []) =
      s.performedWith s.enc s.dec [] [] := by
    rw [clearLine_eq, ← hbuf, ← hovl]
    rfl
  rw [hbuf, List.nil_append] at hchars
  rw [List.map_append, runAll_append_of_next hchars, List.map_singleton, runAll_singleton,
    exec_dChar_newline (by exact hst), hclean, performedWith_dec, hovl]

end Feed

section RunLine

variable {s : State} {L : List Byte}

/-! What a line that the map selects for the parser's state does, for the lines an encoder writes. -/

/-- Where the line map selects the kind, its effect is performed, in the form the statements use. -/
theorem onLine_eq_performedWith {k : LineKind} {ovl : Bool} {eff : State}
    (hkind : lineKind s.dec.state L ovl = some k) :
    onLine k L ovl s eff = .next (eff.performedWith eff.enc eff.dec [] []) :=
  (onLine_selected hkind).trans (done_eq_performedWith eff)

theorem runLine_begin {m : Mode} {N : List Byte} {ovl : Bool} (hkind : lineKind s.dec.state L ovl = some .lBegin)
    (hparse : parseHeader s.params.nameMax L ovl = some (m, N)) :
    runLine L ovl s = .next (s.performedWith s.enc
      { s.dec with seen := true, mode := m, name := N, state := .dWait } [] [.hdr m N]) := by
  simp [runLine, hkind, execLBegin, onLine_eq_performedWith, beginLine, hparse, parseOk, Dec.markSeen]

theorem runLine_data (hkind : lineKind s.dec.state L false = some .lData) :
    runLine L false s = .next (s.performedWith s.enc s.dec [] ((lineBytes L).map DSym.byte)) := by
  simp [runLine, hkind, execLData, onLine_eq_performedWith]

theorem runLine_term (hkind : lineKind s.dec.state L false = some .lTerm) :
    runLine L false s = .next (s.performedWith s.enc { s.dec with state := .dEnd } [] []) := by
  simp [runLine, hkind, execLTerm, onLine_eq_performedWith, goDec]

theorem runLine_end (hst : s.dec.state = .dEnd) :
    runLine Config.endTag false s =
      .next (s.performedWith s.enc { s.dec with state := nextStream s.dec } [] [.endCode .ok]) := by
  have hkind : lineKind s.dec.state Config.endTag false = some .lEnd := by simp [hst, lineKind]
  simp [runLine, hkind, execLEnd, onLine_eq_performedWith, goDec]

end RunLine

/-! ## A stream fed to the parser -/

section Name

variable {p : Params} {m : Mode} {N : List Byte}

/-- The name precondition, its parts apart (43_encoder_frame.md R133). -/
theorem nameOk_iff : nameOk p m N = true ↔
    N ≠ [] ∧ (∀ x ∈ N, isSpace x = false) ∧ N.length ≤ p.nameMax ∧ lineFits p (headerText m N).length := by
  have hlen : (headerText m N).length = 6 + (octal m).length + 1 + N.length := by
    simp [headerText, Config.beginTag]
    omega
  simp only [nameOk, lineFits, hlen]
  cases p.lineMax <;> simp [Nat.one_le_iff_ne_zero, and_assoc]

end Name

section Stream

variable {s : State}

/-- The header line is delivered and the parser waits for the host. -/
theorem runAll_headerLine {m : Mode} {N : List Byte} (hname : nameOk s.params m N = true) (hst : s.dec.state = .dSeek)
    (hclear : s.dec.lineClear = true) :
    runAll ((headerLine m N).map .dChar) s = .next (s.performedWith s.enc
      { s.dec with seen := true, mode := m, name := N, state := .dWait } [] [.hdr m N]) := by
  obtain ⟨hN, hspace, hlen, hfit⟩ := nameOk_iff.1 hname
  rw [headerLine_eq, runAll_line (by simp [headerText]) (newline_notMem_headerText hspace) (.inl hst) hfit hclear,
    runLine_begin (m := m) (N := N) (by simp [hst, lineKind_headerText])
      (by exact parseHeader_headerText hN hspace hlen)]
  simp

/-- The line of a chunk emits the chunk and leaves the parser as it was. -/
theorem runAll_dataLine {C : List Byte} (hC : C ≠ []) (hlen : C.length ≤ 45) (hp : s.params.ok = true)
    (hst : s.dec.state = .dData) (hclear : s.dec.lineClear = true) :
    runAll ((dataLine C).map .dChar) s = .next (s.performedWith s.enc s.dec [] (C.map DSym.byte)) := by
  rw [dataLine_eq, runAll_line (by simp [dataText]) (newline_notMem_dataText C) (.inr (.inl hst))
    (lineFits_of_le hp (length_dataText_le hlen)) hclear,
    runLine_data (by simp [hst, lineKind_dataText hC hlen])]
  simp [lineBytes_dataText hlen]

/-- The terminator line ends the data section. -/
theorem runAll_termLine (hp : s.params.ok = true) (hst : s.dec.state = .dData) (hclear : s.dec.lineClear = true) :
    runAll (termLine.map .dChar) s = .next (s.performedWith s.enc { s.dec with state := .dEnd } [] []) := by
  have hkind : lineKind .dData [lenenc 0] false = some .lTerm := by decide
  have hnl : Config.newline ∉ [lenenc 0] := by decide
  have hline := runAll_line (L := [lenenc 0]) (by simp) hnl (.inr (.inl hst)) (lineFits_of_le hp (by simp)) hclear
  rw [runLine_term (by rw [performedWith_dec, hst, hkind])] at hline
  simpa [termLine] using hline

/-- The trailer line ends the stream. -/
theorem runAll_trailerLine (hp : s.params.ok = true) (hst : s.dec.state = .dEnd) (hclear : s.dec.lineClear = true) :
    runAll (trailerLine.map .dChar) s =
      .next (s.performedWith s.enc { s.dec with state := nextStream s.dec } [] [.endCode .ok]) := by
  have hnl : Config.newline ∉ Config.endTag := by decide
  have hfit : Config.endTag.length ≤ 64 := by decide
  rw [trailerLine, runAll_line (by simp [Config.endTag]) hnl (.inr (.inr hst)) (lineFits_of_le hp hfit) hclear,
    runLine_end (by simp [hst])]
  simp

/-- The body of a stream delivers the source and ends the stream. -/
theorem runAll_streamBody (B : List Byte) (hp : s.params.ok = true) (hst : s.dec.state = .dData)
    (hclear : s.dec.lineClear = true) :
    runAll ((streamBody B).map .dChar) s = .next (s.performedWith s.enc { s.dec with state := nextStream s.dec } []
      (B.map DSym.byte ++ [.endCode .ok])) := by
  induction B using dataLines_induction generalizing s with
  | empty =>
    have hterm := runAll_termLine hp hst hclear
    rw [streamBody, dataLines_nil, List.nil_append, List.map_append, runAll_append_of_next hterm,
      runAll_trailerLine (by exact hp) (by rfl) (by exact hclear), performedWith_performedWith]
    rfl
  | chunk C B hC hlen hlines ih =>
    have hfirst := runAll_dataLine hC hlen hp hst hclear
    have hbody : streamBody (C ++ B) = dataLine C ++ streamBody B := by simp [streamBody, hlines]
    rw [hbody, List.map_append, runAll_append_of_next hfirst, ih (by exact hp) (by exact hst) (by exact hclear)]
    simp

theorem exec_dTgtOk_of_wait (h : s.dec.state = .dWait) :
    exec .dTgtOk s = .next (s.performedWith s.enc { s.dec with state := .dData } [] []) := by
  simp [exec, execDTgtOk, inWait, h, goDec, done_eq_performedWith]

/-- A stream as ENC writes it, its header answered with `D.TGT.OK`, in whatever session (44_decoder_frame.md R155 to
R170). -/
theorem runAll_feedStream {m : Mode} {N : List Byte} (B : List Byte) (hp : s.params.ok = true)
    (hname : nameOk s.params m N = true) (hst : s.dec.state = .dSeek) (hclear : s.dec.lineClear = true) :
    runAll (feedStream .dTgtOk (headerLine m N) (streamBody B)) s = .next (s.performedWith s.enc
      { s.dec with seen := true, mode := m, name := N, state := nextStream s.dec } []
      ([.hdr m N] ++ B.map DSym.byte ++ [.endCode .ok])) := by
  have hheader := runAll_headerLine hname hst hclear
  simp only [feedStream, List.append_assoc, List.singleton_append]
  rw [runAll_append_of_next hheader, runAll_cons_of_next (exec_dTgtOk_of_wait rfl),
    runAll_streamBody B (by exact hp) (by rfl) (by exact hclear), performedWith_performedWith,
    performedWith_performedWith]
  rfl

end Stream

section Session

variable {s : State}

theorem exec_dStart_of_closed (h : s.dec.state = .dIdle ∨ s.dec.state = .dHalt) (multi : Bool) :
    exec (.dStart multi) s =
      .next (s.performedWith s.enc { Dec.reset with multi := multi, state := .dSeek } [] []) := by
  obtain h | h := h <;> simp [exec, execDStart, h, startSession, Dec.startFlags, Dec.reset, done_eq_performedWith]

/-- `D.EOF` between streams, after a header was seen, halts and emits nothing (44_decoder_frame.md R153, R172). -/
theorem exec_dEof_between_streams (h : s.dec.state = nextStream s.dec) (hseen : s.dec.seen = true)
    (hclear : s.dec.lineClear = true) :
    exec .dEof s = .next (s.performedWith s.enc { s.dec with state := .dHalt } [] []) := by
  obtain ⟨hbuf, hovl⟩ := lineClear_iff.1 hclear
  obtain ⟨-, hnext⟩ | ⟨-, hnext⟩ := nextStream_cases s.dec <;> rw [hnext] at h
  · simp [exec, execDEof, h, hseen, goDec, clearLine, ← hbuf, ← hovl, done_eq_performedWith]
  · have hhalt : { s.dec with state := .dHalt } = s.dec := by rw [← h]
    simp [exec, execDEof, h, hhalt, done_eq_performedWith]

/-- A decoder session over one stream delivers the stream and halts. -/
theorem runAll_decodeSession {m : Mode} {N : List Byte} (multi : Bool) (B : List Byte) (hp : s.params.ok = true)
    (hname : nameOk s.params m N = true) (h : s.dec.state = .dIdle ∨ s.dec.state = .dHalt) :
    runAll (decodeSession multi (headerLine m N) (streamBody B)) s = .next (s.performedWith s.enc
      { Dec.reset with multi := multi, seen := true, mode := m, name := N, state := .dHalt } []
      ([.hdr m N] ++ B.map DSym.byte ++ [.endCode .ok])) := by
  have hstart := exec_dStart_of_closed h multi
  have hfeed := runAll_feedStream (s := s.performedWith s.enc { Dec.reset with multi := multi, state := .dSeek } [] [])
    B hp hname rfl rfl
  simp only [decodeSession, List.cons_append, List.nil_append]
  rw [runAll_cons_of_next hstart, runAll_append_of_next hfeed, runAll_singleton,
    exec_dEof_between_streams rfl rfl rfl]
  simp

end Session

/-- Settles O57: ENC emits the stream, and DEC reads it back. -/
theorem roundTrip : Obligations.RoundTrip := by
  intro multi m N B s hp hname henc hempty hdec
  obtain ⟨hN, hspace, hlen, -⟩ := nameOk_iff.1 hname
  refine ⟨_, _, headerLine m N, streamBody B, runAll_encodeSession B henc hempty hN hlen, rfl, ?_, ?_,
    runAll_decodeSession multi B hp hname hdec, by simp, rfl, rfl⟩
  · simp [headerLine_eq, Config.newline]
  · rw [headerLine_eq, List.dropLast_concat]
    exact newline_notMem_headerText hspace

end Sys2Proof.Proofs

/-! Proofs of the statements of 10_state.md: the invariant of the registers (O47, O48), the status words (O46) and what
`D.START` forgets (O58). The invariant R30 is read as one structure per unit, `EncInv` and `DecInv`. First, on the
registers alone, each write of the rules keeps its unit's structure; then each command, being performed with such
writes or refused, leaves a state with the invariant. -/

namespace Sys2Proof.Proofs

open Sys2Proof.Machine

/-! ## The invariant of ENC's registers -/

/-- What R30 says of ENC, one implication per bullet, with the range of `E_NLEN` (R14). -/
structure EncInv (p : Params) (e : Enc) : Prop where
  cnt_le : e.cnt ≤ 44
  nlen_le : e.nlen ≤ p.nameMax
  cnt_zero : e.state = .eIdle ∨ e.state = .eDone → e.cnt = 0
  nlen_pos : e.state ≠ .eIdle → 1 ≤ e.nlen
  err_iff : e.err ≠ .ok ↔ e.state = .eFail

section Encoder

variable {p : Params} {e : Enc}

theorem enc_ok_iff : e.ok p = true ↔ EncInv p e := by
  have hparts : EncInv p e ↔ e.cnt ≤ 44 ∧ e.nlen ≤ p.nameMax ∧
      (e.state = .eIdle ∨ e.state = .eDone → e.cnt = 0) ∧ (e.state ≠ .eIdle → 1 ≤ e.nlen) ∧
      (e.err ≠ .ok ↔ e.state = .eFail) :=
    ⟨fun ⟨a, b, c, d, f⟩ => ⟨a, b, c, d, f⟩, fun ⟨a, b, c, d, f⟩ => ⟨a, b, c, d, f⟩⟩
  rw [hparts]
  cases hst : e.state <;> simp [Enc.ok, hst, and_assoc]

theorem EncInv.reset (p : Params) : EncInv p Enc.reset where
  cnt_le := Nat.zero_le _
  nlen_le := Nat.zero_le _
  cnt_zero _ := rfl
  nlen_pos h := absurd rfl h
  err_iff := by simp [Enc.reset]

namespace EncInv

theorem setMode (h : EncInv p e) (m : Mode) : EncInv p { e with mode := m } := { h with }

theorem pushName (h : EncInv p e) (hroom : e.nlen < p.nameMax) (c : Byte) :
    EncInv p { e with name := e.name ++ [c] } :=
  { h with
    nlen_le := by simpa [Enc.nlen] using hroom
    nlen_pos := by simp [Enc.nlen] }

theorem start (h : EncInv p e) (hst : e.state = .eIdle) (hname : 1 ≤ e.nlen) :
    EncInv p { e with chunk := [], state := .eRun } :=
  { h with
    cnt_le := Nat.zero_le _
    cnt_zero := fun _ => rfl
    nlen_pos := fun _ => hname
    err_iff := by simpa [hst] using h.err_iff }

/-- A chunk of up to 44 bytes may stand between two commands while the source is read. -/
theorem setChunk (h : EncInv p e) (hst : e.state = .eRun) {C : List Byte} (hC : C.length ≤ 44) :
    EncInv p { e with chunk := C } :=
  { h with
    cnt_le := hC
    cnt_zero := by simp [hst] }

theorem finish (h : EncInv p e) (hst : e.state = .eRun) : EncInv p { e with chunk := [], state := .eDone } :=
  { h with
    cnt_le := Nat.zero_le _
    cnt_zero := fun _ => rfl
    nlen_pos := fun _ => h.nlen_pos (by simp [hst])
    err_iff := by simpa [hst] using h.err_iff }

/-- Fault entry (60_exceptions.md R201), from a state in which a session is open. -/
theorem fail (h : EncInv p e) (hst : e.state ≠ .eIdle) {code : FaultCode} (hcode : code ≠ .ok) :
    EncInv p { e with err := code, state := .eFail } :=
  { h with
    cnt_zero := by simp
    nlen_pos := fun _ => h.nlen_pos hst
    err_iff := by simpa using hcode }

end EncInv

end Encoder

/-! ## The invariant of DEC's registers -/

/-- What R30 says of DEC, one implication per bullet, with the ranges of R24 and R25. -/
structure DecInv (p : Params) (d : Dec) : Prop where
  nlen_le : d.nlen ≤ p.nameMax
  line : lineOk p d.lbuf d.ovl = true
  anyFail_iff : d.anyFail = true ↔ d.err ≠ .ok
  clear : ¬ readsChars d.state → d.lineClear = true
  seen : d.state = .dWait ∨ d.state = .dData ∨ d.state = .dEnd → d.seen = true

section Line

variable {p : Params} {L : List Byte} {ovl : Bool}

theorem lineOk_nil (p : Params) : lineOk p [] false = true := by
  unfold lineOk
  split <;> simp

theorem lineOk_append (h : lineOk p L ovl = true) (hroom : lineHasRoom p L = true) (c : Byte) :
    lineOk p (L ++ [c]) ovl = true := by
  unfold lineOk lineHasRoom at *
  cases hp : p.lineMax with
  | none => simpa [hp] using h
  | some m => simpa [hp] using hroom

theorem lineOk_overlong (h : lineOk p L ovl = true) (hroom : lineHasRoom p L = false) : lineOk p L true = true := by
  unfold lineOk lineHasRoom at *
  cases hp : p.lineMax with
  | none => simp [hp] at hroom
  | some m => simpa [hp] using h

end Line

section Decoder

variable {p : Params} {d : Dec}

theorem dec_ok_iff : d.ok p = true ↔ DecInv p d := by
  have hparts : DecInv p d ↔ d.nlen ≤ p.nameMax ∧ lineOk p d.lbuf d.ovl = true ∧
      (d.anyFail = true ↔ d.err ≠ .ok) ∧ (¬ readsChars d.state → d.lineClear = true) ∧
      (d.state = .dWait ∨ d.state = .dData ∨ d.state = .dEnd → d.seen = true) :=
    ⟨fun ⟨a, b, c, d, f⟩ => ⟨a, b, c, d, f⟩, fun ⟨a, b, c, d, f⟩ => ⟨a, b, c, d, f⟩⟩
  have hflag : (d.anyFail == !decide (d.err = .ok)) = true ↔ (d.anyFail = true ↔ d.err ≠ .ok) := by
    cases d.anyFail <;> simp
  rw [hparts, ← hflag]
  cases hst : d.state <;> simp [Dec.ok, hst, readsChars, and_assoc]

theorem DecInv.reset (p : Params) : DecInv p Dec.reset where
  nlen_le := Nat.zero_le _
  line := lineOk_nil p
  anyFail_iff := by simp [Dec.reset]
  clear _ := rfl
  seen := by simp [Dec.reset]

theorem nextStream_seek_or_halt (d : Dec) : nextStream d = .dSeek ∨ nextStream d = .dHalt := by
  obtain ⟨-, h⟩ | ⟨-, h⟩ := nextStream_cases d
  · exact .inl h
  · exact .inr h

namespace DecInv

/-- `D.START` (44_decoder_frame.md R150). -/
theorem start (p : Params) (multi : Bool) : DecInv p { Dec.reset.startFlags multi with state := .dSeek } :=
  { DecInv.reset p with
    clear := fun _ => rfl
    seen := by simp }

theorem pushChar (h : DecInv p d) (hst : readsChars d.state) (hroom : lineHasRoom p d.lbuf = true) (c : Byte) :
    DecInv p { d with lbuf := d.lbuf ++ [c] } :=
  { h with
    line := lineOk_append h.line hroom c
    clear := fun hn => absurd hst hn }

theorem setOverlong (h : DecInv p d) (hst : readsChars d.state) (hroom : lineHasRoom p d.lbuf = false) :
    DecInv p { d with ovl := true } :=
  { h with
    line := lineOk_overlong h.line hroom
    clear := fun hn => absurd hst hn }

theorem cleared (h : DecInv p d) : DecInv p d.cleared :=
  { h with
    line := lineOk_nil p
    clear := fun _ => rfl }

theorem markSeen (h : DecInv p d) : DecInv p d.markSeen :=
  { h with seen := fun _ => rfl }

/-- With the line assembler empty the parser may go to any state that does not ask for a header seen. -/
theorem goto (h : DecInv p d) (hclear : d.lineClear = true) {st : DState}
    (hseen : st = .dWait ∨ st = .dData ∨ st = .dEnd → d.seen = true) : DecInv p { d with state := st } :=
  { h with
    clear := fun _ => hclear
    seen := hseen }

/-- The return of a stream, or the end of the session. -/
theorem leave (h : DecInv p d) (hclear : d.lineClear = true) {st : DState} (hst : st = .dSeek ∨ st = .dHalt) :
    DecInv p { d with state := st } :=
  h.goto hclear (by obtain rfl | rfl := hst <;> simp)

/-- Fault entry (60_exceptions.md R200). -/
theorem faulted (h : DecInv p d) (hclear : d.lineClear = true) {code : FaultCode} (hcode : code ≠ .ok) {st : DState}
    (hst : st = .dSeek ∨ st = .dHalt) : DecInv p (d.faulted code st) :=
  { h.leave hclear hst with anyFail_iff := by simpa [Dec.faulted] using hcode }

/-- A header delivered (44_decoder_frame.md R157). -/
theorem header (h : DecInv p d) (hclear : d.lineClear = true) (hseen : d.seen = true) (m : Mode) {N : List Byte}
    (hN : N.length ≤ p.nameMax) : DecInv p { d with mode := m, name := N, state := .dWait } :=
  { h.goto hclear (st := .dWait) (fun _ => hseen) with nlen_le := hN }

end DecInv

end Decoder

/-! ## The invariant of the machine -/

section Invariant

variable {s t : State}

theorem inv_iff : s.Inv ↔ s.params.ok = true ∧ EncInv s.params s.enc ∧ DecInv s.params s.dec := by
  simp [State.Inv, State.ok, enc_ok_iff, dec_ok_iff, and_assoc]

theorem inv_enc (h : s.Inv) : EncInv s.params s.enc := (inv_iff.1 h).2.1

theorem inv_dec (h : s.Inv) : DecInv s.params s.dec := (inv_iff.1 h).2.2

/-- The invariant speaks of the registers and the parameters alone. -/
theorem inv_of_regs (h : s.Inv) (he : EncInv s.params t.enc) (hd : DecInv s.params t.dec)
    (hp : t.params = s.params) : t.Inv := by
  obtain ⟨hok, -, -⟩ := inv_iff.1 h
  exact inv_iff.2 (hp ▸ ⟨hok, he, hd⟩)

/-- A write to ENC's registers and to whatever is no register. -/
theorem inv_of_enc (h : s.Inv) (he : EncInv s.params t.enc) (hd : t.dec = s.dec) (hp : t.params = s.params) : t.Inv :=
  inv_of_regs h he (hd ▸ inv_dec h) hp

/-- A write to DEC's registers and to whatever is no register. -/
theorem inv_of_dec (h : s.Inv) (hd : DecInv s.params t.dec) (he : t.enc = s.enc) (hp : t.params = s.params) : t.Inv :=
  inv_of_regs h (he ▸ inv_enc h) hd hp

/-- If the outcome is a next state, that state has the invariant. -/
def LeavesInv (o : Out) : Prop := ∀ t, o = .next t → t.Inv

theorem done_leavesInv (h : s.Inv) : LeavesInv (done s) := by
  intro t ht
  rw [(done_next_iff s t).1 ht]
  exact h

theorem turnAway_leavesInv (h : s.Inv) {r : Reason} : LeavesInv (turnAway r s) := by
  intro t ht
  rw [(turnAway_next_iff r s t).1 ht]
  exact h

end Invariant

/-! ## The commands of ENC keep the invariant -/

section EncCommands

variable {s : State}

theorem execESetmode_leavesInv (h : s.Inv) (m : Mode) : LeavesInv (execESetmode m s) := by
  unfold execESetmode
  split
  case h_1 => exact done_leavesInv (inv_of_enc h ((inv_enc h).setMode m) rfl rfl)
  all_goals exact turnAway_leavesInv h

theorem execENamech_leavesInv (h : s.Inv) (c : Byte) : LeavesInv (execENamech c s) := by
  unfold execENamech
  split
  case h_1 =>
    split
    case isTrue hroom => exact done_leavesInv (inv_of_enc h ((inv_enc h).pushName hroom c) rfl rfl)
    case isFalse => exact turnAway_leavesInv h
  all_goals exact turnAway_leavesInv h

theorem execEStart_leavesInv (h : s.Inv) : LeavesInv (execEStart s) := by
  unfold execEStart
  split
  case h_1 hst =>
    split
    case isTrue => exact turnAway_leavesInv h
    case isFalse hname =>
      exact done_leavesInv (inv_of_enc h ((inv_enc h).start hst (Nat.one_le_iff_ne_zero.2 hname)) rfl rfl)
  all_goals exact turnAway_leavesInv h

theorem storeByte_inv (h : s.Inv) (hst : s.enc.state = .eRun) (b : Byte) : (storeByte b s).Inv := by
  have henc := inv_enc h
  obtain ⟨-, heq⟩ | ⟨hlast, heq⟩ := storeByte_cases b s <;> rw [heq]
  · exact inv_of_enc h (henc.setChunk hst (Nat.zero_le _)) rfl rfl
  · have hroom : (s.enc.chunk ++ [b]).length ≤ 44 := by
      have hle : s.enc.chunk.length ≤ 44 := henc.cnt_le
      rw [List.length_append, List.length_singleton]
      omega
    exact inv_of_enc h (henc.setChunk hst hroom) rfl rfl

theorem execEByte_leavesInv (h : s.Inv) (b : Byte) : LeavesInv (execEByte b s) := by
  unfold execEByte
  split
  case h_2 hst => exact done_leavesInv (storeByte_inv h hst b)
  all_goals exact turnAway_leavesInv h

/-- The line of an unfinished chunk goes to the sink and changes neither DEC's registers nor the parameters. -/
theorem flushChunk_regs (s : State) : (flushChunk s).dec = s.dec ∧ (flushChunk s).params = s.params := by
  unfold flushChunk
  split <;> exact ⟨rfl, rfl⟩

theorem execEEof_leavesInv (h : s.Inv) : LeavesInv (execEEof s) := by
  unfold execEEof
  split
  case h_2 hst =>
    obtain ⟨hdec, hparams⟩ := flushChunk_regs s
    exact done_leavesInv (inv_of_enc h ((inv_enc h).finish hst) hdec hparams)
  all_goals exact turnAway_leavesInv h

theorem raiseEnc_inv (h : s.Inv) (hst : s.enc.state ≠ .eIdle) {code : FaultCode} (hcode : code ≠ .ok) :
    (raiseEnc code s).Inv :=
  inv_of_enc h ((inv_enc h).fail hst hcode) rfl rfl

theorem execESinkfail_leavesInv (h : s.Inv) : LeavesInv (execESinkfail s) := by
  unfold execESinkfail
  split
  case h_2 hst | h_3 hst => exact done_leavesInv (raiseEnc_inv h (by simp [hst]) (by decide))
  all_goals exact turnAway_leavesInv h

theorem execERdfail_leavesInv (h : s.Inv) : LeavesInv (execERdfail s) := by
  unfold execERdfail
  split
  case h_2 hst => exact done_leavesInv (raiseEnc_inv h (by simp [hst]) (by decide))
  all_goals exact turnAway_leavesInv h

end EncCommands

/-! ## A finished line keeps the invariant -/

section Lines

variable {s : State} {L : List Byte} {ovl : Bool}

theorem onLine_leavesInv (h : s.Inv) {k : LineKind} {eff : State}
    (heff : lineKind s.dec.state L ovl = some k → eff.Inv) : LeavesInv (onLine k L ovl s eff) := by
  intro t ht
  obtain ⟨hk, rfl⟩ | ⟨-, rfl⟩ := onLine_next ht
  · exact heff hk
  · exact h

theorem state_of_lineKind_lTerm {st : DState} (h : lineKind st L ovl = some .lTerm) : st = .dData := by
  cases st
  case dData => rfl
  case dSeek | dEnd => simp only [lineKind] at h; split at h <;> cases h
  all_goals cases h

theorem clearLine_inv (h : s.Inv) : (clearLine s).Inv := inv_of_dec h (inv_dec h).cleared rfl rfl

/-- Fault entry with the line assembler empty, to one of the states a fault can go to. -/
theorem raiseDec_inv (h : s.Inv) (hclear : s.dec.lineClear = true) {code : FaultCode} (hcode : code ≠ .ok)
    {st : DState} (hst : st = .dSeek ∨ st = .dHalt) : (raiseDec code st s).Inv :=
  inv_of_dec h ((inv_dec h).faulted hclear hcode hst) rfl rfl

/-- A per-stream fault (60_exceptions.md R203). -/
theorem raiseDec_nextStream_inv (h : s.Inv) (hclear : s.dec.lineClear = true) {code : FaultCode}
    (hcode : code ≠ .ok) : (raiseDec code (nextStream s.dec) s).Inv :=
  raiseDec_inv h hclear hcode (nextStream_seek_or_halt s.dec)

/-- A header is delivered only with a name that `D_NAME` has room for (44_decoder_frame.md R155). -/
theorem name_le_of_parseHeader {nameMax : Nat} {m : Mode} {N : List Byte}
    (h : parseHeader nameMax L ovl = some (m, N)) : N.length ≤ nameMax := by
  unfold parseHeader at h
  split at h
  case isTrue => cases h
  case isFalse =>
    split at h
    case h_1 =>
      split_ifs at h with hoctal hlong
      cases h
      exact Nat.le_of_not_lt hlong
    case h_2 => cases h

theorem beginLine_inv (h : s.Inv) (hclear : s.dec.lineClear = true) : (beginLine L ovl s).Inv := by
  have hmarked : (s.setDec s.dec.markSeen).Inv := inv_of_dec h (inv_dec h).markSeen rfl rfl
  unfold beginLine
  split
  next m N hparse =>
    exact inv_of_dec hmarked ((inv_dec hmarked).header hclear rfl m (name_le_of_parseHeader hparse)) rfl rfl
  next => exact raiseDec_nextStream_inv hmarked hclear (by decide)

theorem execLEnd_leavesInv (h : s.Inv) (hclear : s.dec.lineClear = true) : LeavesInv (execLEnd s) :=
  onLine_leavesInv h fun _ =>
    inv_of_dec h ((inv_dec h).leave hclear (nextStream_seek_or_halt s.dec)) rfl rfl

theorem execLTerm_leavesInv (h : s.Inv) (hclear : s.dec.lineClear = true) : LeavesInv (execLTerm L s) :=
  onLine_leavesInv h fun hkind =>
    have hseen := (inv_dec h).seen (.inr (.inl (state_of_lineKind_lTerm hkind)))
    inv_of_dec h ((inv_dec h).goto hclear fun _ => hseen) rfl rfl

/-- Whichever row of the line map a finished line selects, run with the assembler cleared. -/
theorem runLine_leavesInv (h : s.Inv) (hclear : s.dec.lineClear = true) : LeavesInv (runLine L ovl s) := by
  unfold runLine
  split
  case h_1 => exact onLine_leavesInv h fun _ => beginLine_inv h hclear
  case h_2 => exact onLine_leavesInv h fun _ => h
  case h_4 => exact execLTerm_leavesInv h hclear
  case h_6 => exact onLine_leavesInv h fun _ => h
  case h_8 => exact execLEnd_leavesInv h hclear
  case h_10 => exact turnAway_leavesInv h
  case h_3 | h_5 | h_7 | h_9 => exact onLine_leavesInv h fun _ => raiseDec_nextStream_inv h hclear (by decide)

end Lines

/-! ## The commands of DEC keep the invariant -/

section DecCommands

variable {s : State}

theorem startSession_inv (h : s.Inv) (multi : Bool) : (startSession multi s).Inv :=
  inv_of_dec h (DecInv.start s.params multi) rfl rfl

theorem execDStart_leavesInv (h : s.Inv) (multi : Bool) : LeavesInv (execDStart multi s) := by
  unfold execDStart
  split
  case h_1 | h_6 => exact done_leavesInv (startSession_inv h multi)
  all_goals exact turnAway_leavesInv h

theorem assemble_inv (h : s.Inv) (hst : readsChars s.dec.state) (c : Byte) : (assemble c s).Inv := by
  obtain ⟨hroom, heq⟩ | ⟨hroom, heq⟩ := assemble_cases c s <;> rw [heq]
  · exact inv_of_dec h ((inv_dec h).pushChar hst hroom c) rfl rfl
  · exact inv_of_dec h ((inv_dec h).setOverlong hst hroom) rfl rfl

theorem takeChar_leavesInv (h : s.Inv) (hst : readsChars s.dec.state) (c : Byte) : LeavesInv (takeChar c s) := by
  unfold takeChar
  split
  case isTrue => exact done_leavesInv (assemble_inv h hst c)
  case isFalse => exact runLine_leavesInv (clearLine_inv h) rfl

theorem execDChar_leavesInv (h : s.Inv) (c : Byte) : LeavesInv (execDChar c s) := by
  unfold execDChar
  split
  case h_2 hst | h_4 hst | h_5 hst => exact takeChar_leavesInv h (by simp [readsChars, hst]) c
  case h_6 => exact done_leavesInv h
  all_goals exact turnAway_leavesInv h

/-- A fault that drops the unfinished line and ends the session. -/
theorem raiseDec_halt_leavesInv (h : s.Inv) {code : FaultCode} (hcode : code ≠ .ok) :
    LeavesInv (done (raiseDec code .dHalt (clearLine s))) :=
  done_leavesInv (raiseDec_inv (clearLine_inv h) rfl hcode (.inr rfl))

theorem execDEof_leavesInv (h : s.Inv) : LeavesInv (execDEof s) := by
  unfold execDEof
  split
  case h_2 =>
    split
    case isTrue =>
      exact done_leavesInv (inv_of_dec h ((inv_dec h).cleared.leave rfl (.inr rfl)) rfl rfl)
    case isFalse => exact raiseDec_halt_leavesInv h (by decide)
  case h_4 | h_5 => exact raiseDec_halt_leavesInv h (by decide)
  case h_6 => exact done_leavesInv h
  all_goals exact turnAway_leavesInv h

/-- In `D_WAIT` the line assembler is empty, and a header has been seen. -/
theorem inWait_leavesInv (h : s.Inv) {eff : State}
    (heff : s.dec.lineClear = true → s.dec.seen = true → eff.Inv) : LeavesInv (inWait s eff) := by
  intro t ht
  obtain ⟨hst, rfl⟩ | ⟨-, rfl⟩ := inWait_next ht
  · exact heff ((inv_dec h).clear (by simp [readsChars, hst])) ((inv_dec h).seen (.inl hst))
  · exact h

theorem execDTgtOk_leavesInv (h : s.Inv) : LeavesInv (execDTgtOk s) :=
  inWait_leavesInv h fun hclear hseen => inv_of_dec h ((inv_dec h).goto hclear fun _ => hseen) rfl rfl

theorem execDTgtIofail_leavesInv (h : s.Inv) : LeavesInv (execDTgtIofail s) :=
  inWait_leavesInv h fun hclear _ => raiseDec_nextStream_inv h hclear (by decide)

theorem execDTgtResfail_leavesInv (h : s.Inv) : LeavesInv (execDTgtResfail s) :=
  inWait_leavesInv h fun hclear _ => raiseDec_nextStream_inv h hclear (by decide)

theorem execDSinkfail_leavesInv (h : s.Inv) : LeavesInv (execDSinkfail s) := by
  unfold execDSinkfail
  split
  case h_4 | h_5 => exact done_leavesInv (raiseDec_nextStream_inv (clearLine_inv h) rfl (by decide))
  all_goals exact turnAway_leavesInv h

theorem execDRdfail_leavesInv (h : s.Inv) : LeavesInv (execDRdfail s) := by
  unfold execDRdfail
  split
  case h_2 | h_4 | h_5 => exact raiseDec_halt_leavesInv h (by decide)
  case h_6 => exact done_leavesInv h
  all_goals exact turnAway_leavesInv h

end DecCommands

/-! ## Every step keeps the invariant: O47 -/

section StepInv

variable {s : State}

theorem resetEnc_inv (h : s.Inv) : (resetEnc s).Inv := inv_of_enc h (.reset _) rfl rfl

theorem resetDec_inv (h : s.Inv) : (resetDec s).Inv := inv_of_dec h (.reset _) rfl rfl

/-- The command decoder gives commands only, neither a line kind nor a unit function. -/
theorem commandWord_decodeWord (w : Word) : (commandWord (decodeWord w)).isSome = true := by
  unfold decodeWord
  iterate 18 refine iteInduction (motive := fun i => (commandWord i).isSome = true) (fun _ => rfl) fun _ => ?_
  rfl

/-- Every command leaves a state with the invariant. A line kind need not: presented with the assembler not empty, it
may go to a state that asks for it to be. -/
theorem exec_leavesInv {i : Instr} (hi : (commandWord i).isSome = true) (h : s.Inv) : LeavesInv (exec i s) := by
  cases i with
  | resetE => exact done_leavesInv (resetEnc_inv h)
  | resetD => exact done_leavesInv (resetDec_inv h)
  | resetAll => exact done_leavesInv (resetDec_inv (resetEnc_inv h))
  | eSetmode m => exact execESetmode_leavesInv h m
  | eNamech c => exact execENamech_leavesInv h c
  | eStart => exact execEStart_leavesInv h
  | eByte b => exact execEByte_leavesInv h b
  | eEof => exact execEEof_leavesInv h
  | eSinkfail => exact execESinkfail_leavesInv h
  | dStart multi => exact execDStart_leavesInv h multi
  | dChar c => exact execDChar_leavesInv h c
  | dEof => exact execDEof_leavesInv h
  | dTgtOk => exact execDTgtOk_leavesInv h
  | dTgtIofail => exact execDTgtIofail_leavesInv h
  | dTgtResfail => exact execDTgtResfail_leavesInv h
  | dSinkfail => exact execDSinkfail_leavesInv h
  | dRdfail => exact execDRdfail_leavesInv h
  | eRdfail => exact execERdfail_leavesInv h
  | reserved w => exact turnAway_leavesInv h
  | _ => cases hi

theorem step_leavesInv (h : s.Inv) : LeavesInv (step s) := by
  cases hport : s.link.port with
  | nil =>
    rw [step_of_port_nil hport]
    rintro t ⟨⟩
    exact h
  | cons w rest =>
    rw [step_of_port_cons hport]
    exact exec_leavesInv (commandWord_decodeWord w) h

end StepInv

/-- Settles O47. -/
theorem stepKeepsTheInvariant : Obligations.StepKeepsTheInvariant := fun _ t h ht => step_leavesInv h t ht

/-! ## The invariant at reset: O48 -/

theorem resetOn_inv {p : Params} (hp : p.ok = true) : (State.resetOn p).Inv :=
  inv_iff.2 ⟨hp, .reset p, .reset p⟩

/-- Settles O48. -/
theorem invariantHoldsAtReset : Obligations.InvariantHoldsAtReset :=
  ⟨resetOn_inv (by decide), fun _ hp => resetOn_inv hp⟩

/-! ## The layout of the status words: O46 -/

section StatusWords

theorem getLsbD_append_of_lt {m n i : Nat} {x : BitVec n} {y : BitVec m} (h : i < m) :
    (x ++ y).getLsbD i = y.getLsbD i := by
  simp [BitVec.getLsbD_append, h]

theorem getLsbD_ofBool_append {m : Nat} {b : Bool} {y : BitVec m} : (BitVec.ofBool b ++ y).getLsbD m = b := by
  rw [BitVec.getLsbD_append]
  simp

variable (d : Dec)

/-! A field of `D_STATUS` is found by passing the fields above it. -/

theorem status_state : d.status.extractLsb' 0 3 = dStateCode d.state := by
  unfold Dec.status
  iterate 3 rw [BitVec.extractLsb'_append_eq_of_add_le (by decide)]
  exact BitVec.extractLsb'_append_eq_right

theorem status_multi : d.status.getLsbD 3 = d.multi := by
  unfold Dec.status
  iterate 3 rw [getLsbD_append_of_lt (by decide)]
  exact getLsbD_ofBool_append

theorem status_seen : d.status.getLsbD 4 = d.seen := by
  unfold Dec.status
  iterate 2 rw [getLsbD_append_of_lt (by decide)]
  exact getLsbD_ofBool_append

theorem status_anyFail : d.status.getLsbD 5 = d.anyFail := by
  unfold Dec.status
  rw [getLsbD_append_of_lt (by decide)]
  exact getLsbD_ofBool_append

theorem status_err : d.status.extractLsb' 6 4 = d.err.code := BitVec.extractLsb'_append_eq_left

end StatusWords

/-- Settles O46. -/
theorem statusWordLayout : Obligations.StatusWordLayout :=
  ⟨fun _ => ⟨BitVec.extractLsb'_append_eq_right, BitVec.extractLsb'_append_eq_left⟩,
    fun d => ⟨status_state d, status_multi d, status_seen d, status_anyFail d, status_err d⟩, rfl, rfl, rfl⟩

/-! ## A new session forgets the last one: O58 -/

theorem exec_resetD (s : State) : exec .resetD s = .next (s.performedWith s.enc Dec.reset [] []) := by
  simp [exec, execResetD, resetDec, done_eq_performedWith]

/-- Settles O58: what `D.START` leaves in DEC does not mention the registers before it. -/
theorem startForgetsTheLastSession : Obligations.StartForgetsTheLastSession := by
  intro m s h
  have hstart := exec_dStart_of_closed h m
  refine ⟨?_, _, hstart, rfl, fun s' u h' hu => ?_⟩
  · rw [hstart, runAll_cons_of_next (exec_resetD s), runAll_singleton, exec_dStart_of_closed (.inl rfl)]
    simp
  · rw [exec_dStart_of_closed h'] at hu
    cases hu
    rfl

end Sys2Proof.Proofs

/-! Proofs of the statements of 20_memory.md: the order of the commands (O43), the sinks (O49) and the two units
(O51). All three compare runs of one instruction in two states, so the instructions are gone through once: a unit reads
its own registers and the parameters, and writes by a few operations only. A relation between states that makes the two
look alike to the unit and that those operations keep is therefore kept by the unit's commands (`exec_keeps_of_forEnc`,
`exec_keeps_of_forDec`, `exec_keeps`), and each statement follows by choosing its own relation. -/

namespace Sys2Proof.Proofs

open Sys2Proof.Machine

/-! ## Relations that commands keep -/

/-- Both outcomes are next states, and related ones. -/
def BothNext (R : State → State → Prop) (o o' : Out) : Prop := ∃ t t', o = .next t ∧ o' = .next t' ∧ R t t'

/-- What both units ask of a relation: related states have the same parameters, and one answer given to both keeps
them related. -/
structure KeptByUnit (R : State → State → Prop) : Prop where
  params_eq {s s' : State} : R s s' → s'.params = s.params
  setAck {s s' : State} (a : Ack) : R s s' → R (s.setAck a) (s'.setAck a)

/-- What ENC's commands ask: related states have the same ENC registers, and what ENC writes, its registers and its
sink, keeps them related. -/
structure KeptByEnc (R : State → State → Prop) : Prop extends KeptByUnit R where
  enc_eq {s s' : State} : R s s' → s'.enc = s.enc
  setEnc {s s' : State} (e : Enc) : R s s' → R (s.setEnc e) (s'.setEnc e)
  eOutStr {s s' : State} (cs : List Byte) : R s s' → R (s.eOutStr cs) (s'.eOutStr cs)

/-- What DEC's commands and line kinds ask: the same of DEC's registers and sink. -/
structure KeptByDec (R : State → State → Prop) : Prop extends KeptByUnit R where
  dec_eq {s s' : State} : R s s' → s'.dec = s.dec
  setDec {s s' : State} (d : Dec) : R s s' → R (s.setDec d) (s'.setDec d)
  dOutAll {s s' : State} (ys : List DSym) : R s s' → R (s.dOutAll ys) (s'.dOutAll ys)

/-- What the whole instruction set asks: both, and that the function output keeps related states related. -/
structure KeptByAll (R : State → State → Prop) : Prop extends KeptByEnc R, KeptByDec R where
  setFnOut {s s' : State} (r : FnResult) : R s s' → R (s.setFnOut r) (s'.setFnOut r)

namespace KeptByUnit

variable {R : State → State → Prop} {s s' : State} (hR : KeptByUnit R) (h : R s s')
include hR h

protected theorem done : BothNext R (done s) (done s') := ⟨_, _, rfl, rfl, hR.setAck _ h⟩

protected theorem turnAway (r : Reason) : BothNext R (turnAway r s) (turnAway r s') :=
  ⟨_, _, rfl, rfl, hR.setAck _ h⟩

end KeptByUnit

/-! ## The commands of ENC -/

namespace KeptByEnc

variable {R : State → State → Prop} {s s' : State} (hR : KeptByEnc R) (h : R s s')
include hR h

protected theorem execESetmode (m : Mode) : BothNext R (execESetmode m s) (execESetmode m s') := by
  unfold execESetmode
  rw [hR.enc_eq h]
  split
  case h_1 => exact hR.done (hR.setEnc _ h)
  all_goals exact hR.turnAway h _

protected theorem execENamech (c : Byte) : BothNext R (execENamech c s) (execENamech c s') := by
  unfold execENamech
  rw [hR.enc_eq h, hR.params_eq h]
  split
  case h_1 =>
    split
    case isTrue => exact hR.done (hR.setEnc _ h)
    case isFalse => exact hR.turnAway h _
  all_goals exact hR.turnAway h _

protected theorem execEStart : BothNext R (execEStart s) (execEStart s') := by
  unfold execEStart
  rw [hR.enc_eq h]
  split
  case h_1 =>
    split
    case isTrue => exact hR.turnAway h _
    case isFalse => exact hR.done (hR.eOutStr _ (hR.setEnc _ h))
  all_goals exact hR.turnAway h _

protected theorem storeByte (b : Byte) : R (storeByte b s) (storeByte b s') := by
  unfold storeByte
  rw [hR.enc_eq h]
  split
  case isTrue => exact hR.eOutStr _ (hR.setEnc _ h)
  case isFalse => exact hR.setEnc _ h

protected theorem execEByte (b : Byte) : BothNext R (execEByte b s) (execEByte b s') := by
  unfold execEByte
  rw [hR.enc_eq h]
  split
  case h_2 => exact hR.done (hR.storeByte h b)
  all_goals exact hR.turnAway h _

protected theorem flushChunk : R (flushChunk s) (flushChunk s') := by
  unfold flushChunk
  rw [hR.enc_eq h]
  split
  case isTrue => exact hR.eOutStr _ h
  case isFalse => exact h

protected theorem finishStream : R (finishStream s) (finishStream s') := by
  unfold finishStream
  rw [hR.enc_eq h]
  exact hR.setEnc _ (hR.eOutStr _ (hR.flushChunk h))

protected theorem execEEof : BothNext R (execEEof s) (execEEof s') := by
  unfold execEEof
  rw [hR.enc_eq h]
  split
  case h_2 => exact hR.done (hR.finishStream h)
  all_goals exact hR.turnAway h _

protected theorem raiseEnc (code : FaultCode) : R (raiseEnc code s) (raiseEnc code s') := by
  unfold raiseEnc
  rw [hR.enc_eq h]
  exact hR.setEnc _ h

protected theorem execESinkfail : BothNext R (execESinkfail s) (execESinkfail s') := by
  unfold execESinkfail
  rw [hR.enc_eq h]
  split
  case h_2 | h_3 => exact hR.done (hR.raiseEnc h _)
  all_goals exact hR.turnAway h _

protected theorem execERdfail : BothNext R (execERdfail s) (execERdfail s') := by
  unfold execERdfail
  rw [hR.enc_eq h]
  split
  case h_2 => exact hR.done (hR.raiseEnc h _)
  all_goals exact hR.turnAway h _

protected theorem resetEnc : R (resetEnc s) (resetEnc s') := hR.setEnc _ h

end KeptByEnc

/-- A command to ENC reads and writes ENC's side alone. -/
theorem exec_keeps_of_forEnc {R : State → State → Prop} (hR : KeptByEnc R) {i : Instr} (hi : i.forEnc = true)
    {s s' : State} (h : R s s') : BothNext R (exec i s) (exec i s') := by
  cases i with
  | resetE => exact hR.done (hR.resetEnc h)
  | eSetmode m => exact hR.execESetmode h m
  | eNamech c => exact hR.execENamech h c
  | eStart => exact hR.execEStart h
  | eByte b => exact hR.execEByte h b
  | eEof => exact hR.execEEof h
  | eSinkfail => exact hR.execESinkfail h
  | eRdfail => exact hR.execERdfail h
  | _ => cases hi

/-! ## The commands of DEC and its line kinds -/

namespace KeptByDec

variable {R : State → State → Prop} {s s' : State} (hR : KeptByDec R) (h : R s s')
include hR h

protected theorem raiseDec (code : FaultCode) (st : DState) : R (raiseDec code st s) (raiseDec code st s') := by
  unfold raiseDec
  rw [hR.dec_eq h]
  exact hR.dOutAll _ (hR.setDec _ h)

/-- A per-stream fault (60_exceptions.md R203). -/
protected theorem raiseDec_nextStream (code : FaultCode) :
    R (raiseDec code (nextStream s.dec) s) (raiseDec code (nextStream s'.dec) s') := by
  rw [hR.dec_eq h]
  exact hR.raiseDec h code _

protected theorem goDec (st : DState) : R (goDec st s) (goDec st s') := by
  unfold goDec
  rw [hR.dec_eq h]
  exact hR.setDec _ h

protected theorem clearLine : R (clearLine s) (clearLine s') := by
  unfold clearLine
  rw [hR.dec_eq h]
  exact hR.setDec _ h

protected theorem assemble (c : Byte) : R (assemble c s) (assemble c s') := by
  unfold assemble
  rw [hR.dec_eq h, hR.params_eq h]
  split <;> exact hR.setDec _ h

protected theorem onLine {eff eff' : State} (heff : R eff eff') (k : LineKind) (L : List Byte) (ovl : Bool) :
    BothNext R (onLine k L ovl s eff) (onLine k L ovl s' eff') := by
  unfold onLine
  rw [hR.dec_eq h]
  split
  case isTrue => exact hR.done heff
  case isFalse => exact hR.turnAway h _

/-- A line kind whose effect is a per-stream fault. -/
protected theorem onLine_raiseDec (code : FaultCode) (k : LineKind) (L : List Byte) (ovl : Bool) :
    BothNext R (onLine k L ovl s (raiseDec code (nextStream s.dec) s))
      (onLine k L ovl s' (raiseDec code (nextStream s'.dec) s')) :=
  hR.onLine h (hR.raiseDec_nextStream h code) k L ovl

protected theorem parseOk (m : Mode) (N : List Byte) : R (parseOk m N s) (parseOk m N s') := by
  unfold parseOk
  rw [hR.dec_eq h]
  exact hR.dOutAll _ (hR.setDec _ h)

protected theorem beginLine (L : List Byte) (ovl : Bool) : R (beginLine L ovl s) (beginLine L ovl s') := by
  have hseen : R (s.setDec s.dec.markSeen) (s'.setDec s.dec.markSeen) := hR.setDec _ h
  unfold beginLine
  rw [hR.dec_eq h, hR.params_eq h]
  split
  next => exact hR.parseOk hseen _ _
  next => exact hR.raiseDec hseen _ _

protected theorem execLTerm (L : List Byte) : BothNext R (execLTerm L s) (execLTerm L s') :=
  hR.onLine h (hR.goDec h _) _ _ _

protected theorem execLData (L : List Byte) : BothNext R (execLData L s) (execLData L s') :=
  hR.onLine h (hR.dOutAll _ h) _ _ _

protected theorem execLEnd : BothNext R (execLEnd s) (execLEnd s') := by
  unfold execLEnd
  rw [hR.dec_eq h]
  exact hR.onLine h (hR.dOutAll _ (hR.goDec h _)) _ _ _

protected theorem runLine (L : List Byte) (ovl : Bool) : BothNext R (runLine L ovl s) (runLine L ovl s') := by
  unfold runLine
  rw [hR.dec_eq h]
  split
  case h_1 => exact hR.onLine h (hR.beginLine h L ovl) _ _ _
  case h_2 => exact hR.onLine h h _ _ _
  case h_4 => exact hR.execLTerm h L
  case h_6 => exact hR.execLData h L
  case h_8 => exact hR.execLEnd h
  case h_10 => exact hR.turnAway h _
  case h_3 | h_5 | h_7 | h_9 => exact hR.onLine_raiseDec h _ _ _ _

protected theorem execDStart (multi : Bool) : BothNext R (execDStart multi s) (execDStart multi s') := by
  unfold execDStart
  rw [hR.dec_eq h]
  split
  case h_1 | h_6 => exact hR.done (hR.setDec _ h)
  all_goals exact hR.turnAway h _

protected theorem takeChar (c : Byte) : BothNext R (takeChar c s) (takeChar c s') := by
  unfold takeChar
  rw [hR.dec_eq h]
  split
  case isTrue => exact hR.done (hR.assemble h c)
  case isFalse => exact hR.runLine (hR.clearLine h) _ _

protected theorem execDChar (c : Byte) : BothNext R (execDChar c s) (execDChar c s') := by
  unfold execDChar
  rw [hR.dec_eq h]
  split
  case h_2 | h_4 | h_5 => exact hR.takeChar h c
  case h_6 => exact hR.done h
  all_goals exact hR.turnAway h _

/-- A fault that drops the unfinished line. -/
protected theorem done_raiseDec_clearLine (code : FaultCode) (st : DState) :
    BothNext R (done (raiseDec code st (clearLine s))) (done (raiseDec code st (clearLine s'))) :=
  hR.done (hR.raiseDec (hR.clearLine h) code st)

protected theorem execDEof : BothNext R (execDEof s) (execDEof s') := by
  unfold execDEof
  rw [hR.dec_eq h]
  split
  case h_2 =>
    split
    case isTrue => exact hR.done (hR.goDec (hR.clearLine h) _)
    case isFalse => exact hR.done_raiseDec_clearLine h _ _
  case h_4 | h_5 => exact hR.done_raiseDec_clearLine h _ _
  case h_6 => exact hR.done h
  all_goals exact hR.turnAway h _

protected theorem inWait {eff eff' : State} (heff : R eff eff') :
    BothNext R (inWait s eff) (inWait s' eff') := by
  unfold inWait
  rw [hR.dec_eq h]
  split
  case h_3 => exact hR.done heff
  all_goals exact hR.turnAway h _

protected theorem execDSinkfail : BothNext R (execDSinkfail s) (execDSinkfail s') := by
  unfold execDSinkfail
  rw [hR.dec_eq h]
  split
  case h_4 | h_5 => exact hR.done_raiseDec_clearLine h _ _
  all_goals exact hR.turnAway h _

protected theorem execDRdfail : BothNext R (execDRdfail s) (execDRdfail s') := by
  unfold execDRdfail
  rw [hR.dec_eq h]
  split
  case h_2 | h_4 | h_5 => exact hR.done_raiseDec_clearLine h _ _
  case h_6 => exact hR.done h
  all_goals exact hR.turnAway h _

protected theorem resetDec : R (resetDec s) (resetDec s') := hR.setDec _ h

end KeptByDec

/-- A command to DEC, or a line kind of its parser, reads and writes DEC's side alone. -/
theorem exec_keeps_of_forDec {R : State → State → Prop} (hR : KeptByDec R) {i : Instr} (hi : i.forDec = true)
    {s s' : State} (h : R s s') : BothNext R (exec i s) (exec i s') := by
  cases i with
  | resetD => exact hR.done (hR.resetDec h)
  | dStart multi => exact hR.execDStart h multi
  | dChar c => exact hR.execDChar h c
  | dEof => exact hR.execDEof h
  | dTgtOk => exact hR.inWait h (hR.goDec h _)
  | dTgtIofail | dTgtResfail => exact hR.inWait h (hR.raiseDec_nextStream h _)
  | dSinkfail => exact hR.execDSinkfail h
  | dRdfail => exact hR.execDRdfail h
  | lBegin L ovl => exact hR.onLine h (hR.beginLine h L ovl) _ _ _
  | lSkip L ovl => exact hR.onLine h h _ _ _
  | lTerm L => exact hR.execLTerm h L
  | lData L => exact hR.execLData h L
  | lEnd => exact hR.execLEnd h
  | lEmpty | lBadlen | lShort | lNoend => exact hR.onLine_raiseDec h _ _ _ _
  | _ => cases hi

/-! ## Every instruction -/

section Keeps

variable {R : State → State → Prop} {s s' : State}

theorem KeptByAll.answer (hR : KeptByAll R) (h : R s s') (r : FnResult) : BothNext R (answer r s) (answer r s') :=
  hR.done (hR.setFnOut r h)

/-- An instruction is a command to one of the units, the reset of both, a reserved word or a unit function. -/
theorem exec_keeps (hR : KeptByAll R) (i : Instr) (h : R s s') : BothNext R (exec i s) (exec i s') := by
  by_cases henc : i.forEnc = true
  · exact exec_keeps_of_forEnc hR.toKeptByEnc henc h
  by_cases hdec : i.forDec = true
  · exact exec_keeps_of_forDec hR.toKeptByDec hdec h
  cases i with
  | resetAll => exact hR.done (hR.resetDec (hR.resetEnc h))
  | reserved w => exact hR.turnAway h _
  | enc6 | dec6 | pack3 | pack2 | pack1 | unpack3 | unpack2 | unpack1 | lenenc | lendec | lenneed | lenchars =>
    exact hR.answer h _
  | resetE | eSetmode | eNamech | eStart | eByte | eEof | eSinkfail | eRdfail => exact absurd rfl henc
  | _ => exact absurd rfl hdec

theorem runAll_keeps (hR : KeptByAll R) (is : List Instr) (h : R s s') : BothNext R (runAll is s) (runAll is s') := by
  induction is generalizing s s' with
  | nil => exact ⟨s, s', rfl, rfl, h⟩
  | cons i is ih =>
    obtain ⟨t, t', ht, ht', hR'⟩ := exec_keeps hR i h
    rw [runAll_cons_of_next ht, runAll_cons_of_next ht']
    exact ih hR'

end Keeps

/-! ## The two units: O51 -/

section Units

variable {s se sd : State}

/-- `se` agrees with `s` on ENC's side, and `sd` on DEC's: what `s` is to each unit alone. -/
structure SplitsInto (s se sd : State) : Prop where
  enc : se.enc = s.enc
  eSink : se.link.eSink = s.link.eSink
  params_enc : se.params = s.params
  dec : sd.dec = s.dec
  dSink : sd.link.dSink = s.link.dSink
  params_dec : sd.params = s.params

theorem splitsInto_refl (s : State) : SplitsInto s s s := ⟨rfl, rfl, rfl, rfl, rfl, rfl⟩

/-- ENC acts on `s` as on ENC alone, and DEC's part does not notice. -/
theorem splitsInto_keptByEnc (sd : State) : KeptByEnc fun s se => SplitsInto s se sd where
  enc_eq h := h.enc
  params_eq h := h.params_enc
  setEnc _ h := { h with enc := rfl }
  eOutStr cs h := { h with eSink := congrArg (· ++ cs) h.eSink }
  setAck _ h := { h with }

/-- DEC acts on `s` as on DEC alone, and ENC's part does not notice. -/
theorem splitsInto_keptByDec (se : State) : KeptByDec fun s sd => SplitsInto s se sd where
  dec_eq h := h.dec
  params_eq h := h.params_dec
  setDec _ h := { h with dec := rfl }
  dOutAll ys h := { h with dSink := congrArg (· ++ ys) h.dSink }
  setAck _ h := { h with }

/-- No command is addressed to both units. -/
theorem forDec_of_forEnc {i : Instr} (h : i.forEnc = true) : i.forDec = false := by
  cases i with
  | resetE | eSetmode | eNamech | eStart | eByte | eEof | eSinkfail | eRdfail => rfl
  | _ => cases h

theorem forEnc_of_forDec {i : Instr} (h : i.forDec = true) : i.forEnc = false :=
  Bool.eq_false_iff.2 fun he => by simp [forDec_of_forEnc he] at h

/-- Each command of an interleaving advances the whole machine and the one unit it is addressed to. -/
theorem runAll_splits (is : List Instr) (hunits : ∀ i ∈ is, i.forEnc = true ∨ i.forDec = true)
    (h : SplitsInto s se sd) :
    ∃ t te td : State, runAll is s = .next t ∧ runAll (is.filter Instr.forEnc) se = .next te ∧
      runAll (is.filter Instr.forDec) sd = .next td ∧ SplitsInto t te td := by
  induction is generalizing s se sd with
  | nil => exact ⟨s, se, sd, rfl, rfl, rfl, h⟩
  | cons i is ih =>
    obtain ⟨hi, his⟩ := List.forall_mem_cons.1 hunits
    obtain henc | hdec := hi
    · obtain ⟨t, te, ht, hte, hsplit⟩ := exec_keeps_of_forEnc (splitsInto_keptByEnc sd) henc h
      rw [List.filter_cons_of_pos henc, List.filter_cons_of_neg (by simp [forDec_of_forEnc henc]),
        runAll_cons_of_next ht, runAll_cons_of_next hte]
      exact ih his hsplit
    · obtain ⟨t, td, ht, htd, hsplit⟩ := exec_keeps_of_forDec (splitsInto_keptByDec se) hdec h
      rw [List.filter_cons_of_pos hdec, List.filter_cons_of_neg (by simp [forEnc_of_forDec hdec]),
        runAll_cons_of_next ht, runAll_cons_of_next htd]
      exact ih his hsplit

end Units

/-- Settles O51: each unit's registers and sink are those of the run of its own commands. -/
theorem unitsAreIndependent : Obligations.UnitsAreIndependent := by
  intro is s hunits
  obtain ⟨t, te, td, ht, hte, htd, hsplit⟩ := runAll_splits is hunits (splitsInto_refl s)
  exact ⟨t, te, td, ht, hte, htd, hsplit.enc.symm, hsplit.eSink.symm, hsplit.dec.symm, hsplit.dSink.symm⟩

/-! ## The order of the commands: O43 -/

/-- No instruction reads or writes the commands to come: they may be any others. -/
theorem setPort_keptByAll (p : List Word) : KeptByAll fun s s' => s' = s.setPort p where
  params_eq h := h ▸ rfl
  enc_eq h := h ▸ rfl
  dec_eq h := h ▸ rfl
  setEnc _ h := h ▸ rfl
  setDec _ h := h ▸ rfl
  eOutStr _ h := h ▸ rfl
  dOutAll _ h := h ▸ rfl
  setAck _ h := h ▸ rfl
  setFnOut _ h := h ▸ rfl

theorem exec_setPort (i : Instr) (s : State) (p : List Word) :
    ∃ t, exec i s = .next t ∧ exec i (s.setPort p) = .next (t.setPort p) := by
  obtain ⟨t, _, ht, ht', rfl⟩ := exec_keeps (setPort_keptByAll p) i (s := s) rfl
  exact ⟨t, ht, ht'⟩

theorem run_succ_of_next {M : Host.Core} {s t : M.State} (h : M.step s = .next t) (k : Nat) :
    M.run (k + 1) s = M.run k t := by
  rw [Host.Core.run, h]

/-- The steps of the machine take the words from the port one by one, each when the one before is done. -/
theorem run_setPort (ws rest : List Word) (s : State) :
    ∃ t, runAll (ws.map decodeWord) s = .next t ∧
      Host.Core.run Sys2Proof.core ws.length (s.setPort (ws ++ rest)) = .next (t.setPort rest) := by
  induction ws generalizing s with
  | nil => exact ⟨s, rfl, rfl⟩
  | cons w ws ih =>
    obtain ⟨u, hu, hport⟩ := exec_setPort (decodeWord w) s (ws ++ rest)
    obtain ⟨t, ht, hrun⟩ := ih u
    have hstep : step (s.setPort (w :: ws ++ rest)) = .next (u.setPort (ws ++ rest)) :=
      (step_of_port_cons rfl).trans hport
    exact ⟨t, (runAll_cons_of_next hu _).trans ht, (run_succ_of_next hstep _).trans hrun⟩

/-- Settles O43, by induction on the words: no instruction sees the port. -/
theorem commandsRunInOrder : Obligations.CommandsRunInOrder := run_setPort

/-! ## Output is never retracted: O49 -/

/-- One state, taken twice, in which both sinks still begin with what `s₀` had in them. -/
def Extends (s₀ s s' : State) : Prop :=
  s' = s ∧ s₀.link.eSink <+: s.link.eSink ∧ s₀.link.dSink <+: s.link.dSink

/-- A sink is written by appending only. -/
theorem extends_keptByAll (s₀ : State) : KeptByAll (Extends s₀) where
  params_eq := fun ⟨h, _⟩ => h ▸ rfl
  enc_eq := fun ⟨h, _⟩ => h ▸ rfl
  dec_eq := fun ⟨h, _⟩ => h ▸ rfl
  setEnc := fun _ ⟨h, he, hd⟩ => ⟨h ▸ rfl, he, hd⟩
  setDec := fun _ ⟨h, he, hd⟩ => ⟨h ▸ rfl, he, hd⟩
  eOutStr := fun cs ⟨h, he, hd⟩ => ⟨h ▸ rfl, he.trans (List.prefix_append _ cs), hd⟩
  dOutAll := fun ys ⟨h, he, hd⟩ => ⟨h ▸ rfl, he, hd.trans (List.prefix_append _ ys)⟩
  setAck := fun _ ⟨h, he, hd⟩ => ⟨h ▸ rfl, he, hd⟩
  setFnOut := fun _ ⟨h, he, hd⟩ => ⟨h ▸ rfl, he, hd⟩

/-- Settles O49: to append is all that an instruction does to a sink. -/
theorem outputIsNeverRetracted : Obligations.OutputIsNeverRetracted := by
  intro is s t ht
  have hs : Extends s s s := ⟨rfl, List.prefix_refl _, List.prefix_refl _⟩
  obtain ⟨u, _, hu, -, -, hsinks⟩ := runAll_keeps (extends_keptByAll s) is hs
  rw [ht] at hu
  cases hu
  exact hsinks

end Sys2Proof.Proofs

/-! Proofs of the statements of 30_encoding.md: the decoder and the encoder (O36 to O41), the text of a data line
(O9), the mode operand of a header (O24) and the line map (O20). A row of the command table is a match with an operand
below it (`IsFieldRow`); what its words are, and that no other row takes them, is said once for all rows. -/

namespace Sys2Proof.Proofs

open Sys2Proof.Machine

/-! ## The rows of the command table: O39 -/

section CommandRows

variable {mat mask mat' mask' w : Word} {k : Nat}

theorem selects_iff : selects mat mask w = true ↔ w &&& mask = mat := by simp [selects]

/-- Two rows whose matches differ in a bit that both compare have no word in common. -/
theorem selects_eq_false_of_selects (hw : selects mat mask w = true) (hne : mat &&& mask' ≠ mat' &&& mask) :
    selects mat' mask' w = false := by
  refine Bool.eq_false_iff.2 fun hw' => hne ?_
  rw [← selects_iff.1 hw, ← selects_iff.1 hw', BitVec.and_assoc, BitVec.and_assoc, BitVec.and_comm mask]

/-- Any two rows of R78 differ in a bit that both compare. -/
theorem commandRows_pairwise_ne : commandRows.Pairwise fun r q => r.1 &&& q.2 ≠ q.1 &&& r.2 := by decide

/-- A row of R78 whose operand is the low `k` bits of the word: the mask compares all the bits above them, and the match
has none below. -/
abbrev IsFieldRow (k : Nat) (mat mask : Word) : Prop :=
  k ≤ 16 ∧ mask = BitVec.allOnes 16 <<< k ∧ mat >>> k <<< k = mat

namespace IsFieldRow

variable (h : IsFieldRow k mat mask)
include h

/-- The match has no bit in the operand's place. -/
theorem shift_match : mat >>> k <<< k = mat := by
  obtain ⟨-, -, hmat⟩ := h
  exact hmat

/-- The words of a row are those that are its match once the operand is shifted out. -/
theorem selects_iff_shift : selects mat mask w = true ↔ w >>> k <<< k = mat := by
  obtain ⟨-, rfl, -⟩ := h
  rw [selects_iff, BitVec.shiftLeft_ushiftRight]

/-- A word selects a row exactly when it has the row's operation, and the row's argument above the operand. -/
theorem selects_iff_op_arg (hk : k ≤ 12) : selects mat mask w = true ↔
    w.toNat / 4096 = mat.toNat / 4096 ∧ w.toNat % 4096 / 2 ^ k = mat.toNat % 4096 / 2 ^ k := by
  have hw := w.isLt
  rw [h.selects_iff_shift, ← BitVec.toNat_inj, BitVec.toNat_shiftLeft, BitVec.toNat_ushiftRight]
  have hmat := congrArg BitVec.toNat h.shift_match
  rw [BitVec.toNat_shiftLeft, BitVec.toNat_ushiftRight] at hmat
  simp only [Nat.shiftLeft_eq, Nat.shiftRight_eq_div_pow] at hmat ⊢
  interval_cases k <;> omega

theorem getLsbD_match_of_lt {i : Nat} (hi : i < k) : mat.getLsbD i = false := by
  rw [← h.shift_match]
  simp [hi]

/-- The match with an operand in its field selects the row. -/
theorem selects_or (x : BitVec k) : selects mat mask (mat ||| x.setWidth 16) = true := by
  have hx : x.setWidth 16 >>> k = 0 := by
    ext i hi
    simp
  rw [h.selects_iff_shift, BitVec.ushiftRight_or_distrib, BitVec.shiftLeft_or_distrib, hx]
  simpa using h.shift_match

/-- The field of a match with an operand is the operand. -/
theorem extractLsb'_or (x : BitVec k) : (mat ||| x.setWidth 16).extractLsb' 0 k = x := by
  obtain ⟨hk, -, -⟩ := id h
  ext i hi
  have hmat := h.getLsbD_match_of_lt hi
  simp_all [BitVec.getLsbD_eq_getElem, hi.trans_le hk]

/-- A word that selects the row is its match with the operand cut from the word. -/
theorem or_extractLsb' (hw : selects mat mask w = true) : mat ||| (w.extractLsb' 0 k).setWidth 16 = w := by
  rw [← h.selects_iff_shift.1 hw]
  ext i hi
  by_cases hik : i < k
  · simp [hik, BitVec.getLsbD_eq_getElem hi]
  · simp [hik, Nat.add_sub_cancel' (Nat.le_of_not_lt hik), BitVec.getLsbD_eq_getElem hi]

end IsFieldRow

/-! The rows of R78: five have an operand, and one without is a row whose operand has no bits. -/

theorem isFieldRow_fixed (mat : Word) : IsFieldRow 0 mat 0xFFFF := ⟨Nat.zero_le _, rfl, by simp⟩
theorem isFieldRow_eSetmode : IsFieldRow 9 0x2000 0xFE00 := by decide
theorem isFieldRow_eNamech : IsFieldRow 8 0x3000 0xFF00 := by decide
theorem isFieldRow_eByte : IsFieldRow 8 0x5000 0xFF00 := by decide
theorem isFieldRow_dStart : IsFieldRow 1 0x8000 0xFFFE := by decide
theorem isFieldRow_dChar : IsFieldRow 8 0x9000 0xFF00 := by decide

end CommandRows

/-- Settles O39. -/
theorem commandRowsDoNotOverlap : Obligations.CommandRowsDoNotOverlap :=
  commandRows_pairwise_ne.imp fun hne _ hw => selects_eq_false_of_selects hw hne

/-! ## The words that no row takes: O40 -/

/-- A word that no row takes comes through all the tests of the decoder. -/
theorem decodeWord_of_not_command {w : Word} (h : isCommand w = false) : decodeWord w = .reserved w := by
  simp only [isCommand, commandRows, List.any_cons, List.any_nil, Bool.or_eq_false_iff] at h
  simp only [decodeWord, h, Bool.false_eq_true, if_false]

/-- A word reserved by the decoder is a well-formed reserved word, so it matches no row (30_encoding.md R79). -/
theorem decodeWord_eq_reserved_iff {w : Word} : decodeWord w = .reserved w ↔ isCommand w = false := by
  refine ⟨fun h => ?_, decodeWord_of_not_command⟩
  simpa [h, Instr.WellFormed, Instr.wf] using decodeWord_wellFormed w

/-- The words that no row of R78 takes, by operation and argument. -/
theorem isCommand_eq_false_iff {w : Word} {op arg : Nat} (hop : w.toNat / 4096 = op) (harg : w.toNat % 4096 = arg) :
    isCommand w = false ↔
      op = 0x0 ∨ op = 0xF ∨ (op = 0x1 ∧ arg ≠ 1 ∧ arg ≠ 2 ∧ arg ≠ 3) ∨ (op = 0x2 ∧ 512 ≤ arg) ∨
      ((op = 0x3 ∨ op = 0x5 ∨ op = 0x9) ∧ 256 ≤ arg) ∨ (op = 0x8 ∧ 2 ≤ arg) ∨ (op = 0xB ∧ 3 ≤ arg) ∨
      ((op = 0x4 ∨ op = 0x6 ∨ op = 0x7 ∨ op = 0xA ∨ op = 0xC ∨ op = 0xD ∨ op = 0xE) ∧ arg ≠ 0) := by
  have hop_lt : op < 16 := by omega
  have hfixed (mat : Word) := (isFieldRow_fixed mat).selects_iff_op_arg (w := w) (by decide)
  simp only [isCommand, commandRows, List.any_cons, List.any_nil, Bool.or_eq_true, Bool.false_eq_true, or_false,
    hfixed, isFieldRow_eSetmode.selects_iff_op_arg, isFieldRow_eNamech.selects_iff_op_arg,
    isFieldRow_eByte.selects_iff_op_arg, isFieldRow_dStart.selects_iff_op_arg, isFieldRow_dChar.selects_iff_op_arg,
    hop, harg, Nat.reduceLeDiff, ← Bool.not_eq_true]
  clear hop harg hfixed
  interval_cases op <;> simp
  all_goals omega

/-- Settles O40. -/
theorem reservedWordsAreRefused : Obligations.ReservedWordsAreRefused := fun _ =>
  ⟨decodeWord_eq_reserved_iff.trans (isCommand_eq_false_iff rfl rfl), fun _ => rfl⟩

/-! ## Every word is the encoding of what it decodes to: O37 -/

/-! The encoder gives back the word that a row takes: from the match alone, or from the match and the operand cut from
the word. -/

/-- A row of a decoding table passes on that the encoding is `e`: where the row is selected its instruction has it, and
otherwise the remaining rows give one that has. -/
theorem encode_ite {c : Prop} [Decidable c] {i j : Instr} {e : Encoding} (hi : c → encode i = e) (hj : encode j = e) :
    encode (if c then i else j) = e := by
  split
  case isTrue hc => exact hi hc
  case isFalse => exact hj

theorem word_of_selects_fixed {mat w : Word} (h : selects mat 0xFFFF w = true) : Encoding.word mat = .word w := by
  simpa [eq_comm] using (isFieldRow_fixed mat).selects_iff_shift.1 h

theorem word_of_selects_field {k : Nat} {mat mask w : Word} (hrow : IsFieldRow k mat mask)
    (h : selects mat mask w = true) :
    Encoding.word (mat ||| (w.extractLsb' 0 k).setWidth 16) = .word w :=
  congrArg Encoding.word (hrow.or_extractLsb' h)

theorem ofBool_getLsbD_zero (w : Word) : BitVec.ofBool (w.getLsbD 0) = w.extractLsb' 0 1 := by
  ext i hi
  simp [Nat.lt_one_iff.1 hi]

/-- Row by row of R78: the encoding of what a word decodes to is the word. -/
theorem encode_decodeWord (w : Word) : encode (decodeWord w) = .word w := by
  refine encode_ite word_of_selects_fixed <| encode_ite word_of_selects_fixed <| encode_ite word_of_selects_fixed <|
    encode_ite (word_of_selects_field isFieldRow_eSetmode) <| encode_ite (word_of_selects_field isFieldRow_eNamech) <|
    encode_ite word_of_selects_fixed <| encode_ite (word_of_selects_field isFieldRow_eByte) <|
    encode_ite word_of_selects_fixed <| encode_ite word_of_selects_fixed <|
    encode_ite (fun h => ?dStart) <| encode_ite (word_of_selects_field isFieldRow_dChar) <|
    encode_ite word_of_selects_fixed <| encode_ite word_of_selects_fixed <| encode_ite word_of_selects_fixed <|
    encode_ite word_of_selects_fixed <| encode_ite word_of_selects_fixed <| encode_ite word_of_selects_fixed <|
    encode_ite word_of_selects_fixed rfl
  case dStart =>
    rw [encode, ofBool_getLsbD_zero]
    exact word_of_selects_field isFieldRow_dStart h

/-- Settles O37. -/
theorem encodeUndoesDecodeOnWords : Obligations.EncodeUndoesDecodeOnWords := fun w =>
  ⟨encode_decodeWord w, decodeWord_wellFormed w⟩

/-! ## What the decoder accepts: O38 -/

section Lines

variable {st : DState} {L : List Byte} {ovl : Bool} {k : LineKind}

/-- The parser state in which the line map has the row of a kind. -/
def kindState : LineKind → DState
  | .lBegin | .lSkip => .dSeek
  | .lEmpty | .lTerm | .lBadlen | .lData | .lShort => .dData
  | .lEnd | .lNoend => .dEnd

theorem kindState_dataKind (L : List Byte) : kindState (dataKind L) = .dData := by
  unfold dataKind
  repeat' split
  all_goals rfl

/-- The line map selects a kind in one parser state only. -/
theorem state_of_lineKind (h : lineKind st L ovl = some k) : st = kindState k := by
  unfold lineKind at h
  split at h <;> cases h
  · split <;> rfl
  · exact (kindState_dataKind L).symm
  · split <;> rfl

/-- The instruction of a line in the row that the line map selects is well formed. In the data section the overlong mark
is not looked at, and the rows carry none. -/
theorem lineInstr_wellFormed (h : lineKind st L ovl = some k) : (lineInstr k L ovl).WellFormed := by
  obtain rfl := state_of_lineKind h
  cases k with
  | lBegin | lSkip | lTerm | lBadlen | lData | lShort | lNoend => exact beq_iff_eq.2 h
  | lEmpty | lEnd => rfl

/-- What the line decoder accepts is the row that the line map selects. -/
theorem decodeLine_eq_ok_iff {i : Instr} :
    decodeLine st L ovl = .ok i ↔ ∃ k, lineKind st L ovl = some k ∧ lineInstr k L ovl = i := by
  unfold decodeLine
  cases lineKind st L ovl <;> simp

end Lines

theorem wellFormed_of_decodeCall {f : Fn} {b : BitVec 24} {i : Instr} (h : decodeCall f b = .ok i) : i.WellFormed := by
  unfold decodeCall at h
  split_ifs at h with hb hwf
  cases h
  exact hwf

/-- Settles O38. -/
theorem decoderAcceptsOnlyWellFormed : Obligations.DecoderAcceptsOnlyWellFormed := by
  intro e i h
  cases e with
  | word w => cases h; exact decodeWord_wellFormed w
  | line st L ovl =>
    obtain ⟨k, hk, rfl⟩ := decodeLine_eq_ok_iff.1 h
    exact lineInstr_wellFormed hk
  | call f b => exact wellFormed_of_decodeCall h

/-! ## Decoding undoes encoding: O36 -/

section Commands

/-! The commands with an operand. A word that selects a row selects none tested before it, so the decoder takes that
row; the operand cut from the word is then the one the encoder put there. -/

section Rows

variable {w : Word}

theorem decodeWord_of_selects_eSetmode (h : selects 0x2000 0xFE00 w = true) :
    decodeWord w = .eSetmode (w.extractLsb' 0 9) := by
  simp (disch := decide) only [decodeWord, selects_eq_false_of_selects h, h, if_true, Bool.false_eq_true, if_false]

theorem decodeWord_of_selects_eNamech (h : selects 0x3000 0xFF00 w = true) :
    decodeWord w = .eNamech (w.extractLsb' 0 8) := by
  simp (disch := decide) only [decodeWord, selects_eq_false_of_selects h, h, if_true, Bool.false_eq_true, if_false]

theorem decodeWord_of_selects_eByte (h : selects 0x5000 0xFF00 w = true) :
    decodeWord w = .eByte (w.extractLsb' 0 8) := by
  simp (disch := decide) only [decodeWord, selects_eq_false_of_selects h, h, if_true, Bool.false_eq_true, if_false]

theorem decodeWord_of_selects_dChar (h : selects 0x9000 0xFF00 w = true) :
    decodeWord w = .dChar (w.extractLsb' 0 8) := by
  simp (disch := decide) only [decodeWord, selects_eq_false_of_selects h, h, if_true, Bool.false_eq_true, if_false]

end Rows

theorem decode_word_field {k : Nat} {mat mask : Word} {mk : BitVec k → Instr} (hrow : IsFieldRow k mat mask)
    (hdec : ∀ {w}, selects mat mask w = true → decodeWord w = mk (w.extractLsb' 0 k)) (x : BitVec k) :
    decode (.word (mat ||| x.setWidth 16)) = .ok (mk x) := by
  rw [decode, hdec (hrow.selects_or x), hrow.extractLsb'_or]

theorem decodeWord_dStart (multi : Bool) :
    decodeWord (0x8000 ||| (BitVec.ofBool multi).setWidth 16) = .dStart multi := by
  cases multi <;> rfl

end Commands

section Calls

/-! The operand bits of a unit function, cut at the borders of its operands, are the operands. -/

section Cuts

variable {m n p q : Nat} (x : BitVec m) (y : BitVec n) (z : BitVec p) (u : BitVec q)

/-- Above the last operand the bits are those of the operands before it. -/
theorem extractLsb'_append_add (s len : Nat) : (x ++ y).extractLsb' (s + n) len = x.extractLsb' s len := by
  rw [BitVec.extractLsb'_append_eq_of_le (Nat.le_add_left n s), Nat.add_sub_cancel]

theorem extractLsb'_append_two : (x ++ y).extractLsb' n m = x ∧ (x ++ y).extractLsb' 0 n = y :=
  ⟨BitVec.extractLsb'_append_eq_left, BitVec.extractLsb'_append_eq_right⟩

theorem extractLsb'_append_three :
    (x ++ y ++ z).extractLsb' (n + p) m = x ∧ (x ++ y ++ z).extractLsb' (0 + p) n = y ∧
      (x ++ y ++ z).extractLsb' 0 p = z := by
  rw [extractLsb'_append_add, extractLsb'_append_add]
  exact and_assoc.1 ⟨extractLsb'_append_two x y, BitVec.extractLsb'_append_eq_right⟩

theorem extractLsb'_append_four :
    (x ++ y ++ z ++ u).extractLsb' (n + p + q) m = x ∧ (x ++ y ++ z ++ u).extractLsb' (0 + p + q) n = y ∧
      (x ++ y ++ z ++ u).extractLsb' (0 + q) p = z ∧ (x ++ y ++ z ++ u).extractLsb' 0 q = u := by
  obtain ⟨hx, hy, hz⟩ := extractLsb'_append_three x y z
  simp only [extractLsb'_append_add (x ++ y ++ z) u]
  exact ⟨hx, hy, hz, BitVec.extractLsb'_append_eq_right⟩

end Cuts

theorem callInstr_pack3 (b0 b1 b2 : Byte) : callInstr .pack3 (b0 ++ b1 ++ b2) = .pack3 b0 b1 b2 := by
  rw [callInstr, Instr.pack3.injEq]
  exact extractLsb'_append_three b0 b1 b2

theorem callInstr_unpack3 (c0 c1 c2 c3 : Sextet) :
    callInstr .unpack3 (c0 ++ c1 ++ c2 ++ c3) = .unpack3 c0 c1 c2 c3 := by
  rw [callInstr, Instr.unpack3.injEq]
  exact extractLsb'_append_four c0 c1 c2 c3

theorem callInstr_pack2 (b0 b1 : Byte) : callInstr .pack2 ((b0 ++ b1).setWidth 24) = .pack2 b0 b1 := by
  rw [callInstr, Instr.pack2.injEq]
  simp only [Nat.reduceAdd, Nat.reduceLeDiff, BitVec.extractLsb'_setWidth_of_le]
  exact extractLsb'_append_two b0 b1

theorem callInstr_unpack2 (c0 c1 c2 : Sextet) :
    callInstr .unpack2 ((c0 ++ c1 ++ c2).setWidth 24) = .unpack2 c0 c1 c2 := by
  rw [callInstr, Instr.unpack2.injEq]
  simp only [Nat.reduceAdd, Nat.reduceLeDiff, BitVec.extractLsb'_setWidth_of_le]
  exact extractLsb'_append_three c0 c1 c2

theorem callInstr_unpack1 (c0 c1 : Sextet) : callInstr .unpack1 ((c0 ++ c1).setWidth 24) = .unpack1 c0 c1 := by
  rw [callInstr, Instr.unpack1.injEq]
  simp only [Nat.reduceAdd, Nat.reduceLeDiff, BitVec.extractLsb'_setWidth_of_le]
  exact extractLsb'_append_two c0 c1

/-- Operand bits within the width of the function decode to the instruction they are cut into, where it is well
formed. -/
theorem decode_call {f : Fn} {b : BitVec 24} {i : Instr} (hb : b.toNat < 2 ^ f.width) (hi : callInstr f b = i)
    (hwf : i.WellFormed) : decode (.call f b) = .ok i := by
  subst hi
  simp [decode, decodeCall, hb, hwf]

theorem width_le (f : Fn) : f.width ≤ 24 := by cases f <;> decide

/-- Operands of exactly the function's width stay within it when they are put in the low operand bits. -/
theorem decode_call_setWidth {f : Fn} {i : Instr} (x : BitVec f.width) (hi : callInstr f (x.setWidth 24) = i)
    (hwf : i.WellFormed) : decode (.call f (x.setWidth 24)) = .ok i := by
  refine decode_call ?_ hi hwf
  rw [BitVec.toNat_setWidth_of_le (width_le f)]
  exact x.isLt

/-- A function of one operand, which is all of its operand bits. -/
theorem decode_call_one {f : Fn} {mk : BitVec f.width → Instr}
    (hmk : ∀ b, callInstr f b = mk (b.extractLsb' 0 f.width)) (x : BitVec f.width) (hwf : (mk x).WellFormed) :
    decode (.call f (x.setWidth 24)) = .ok (mk x) := by
  refine decode_call_setWidth x ?_ hwf
  rw [hmk, BitVec.extractLsb'_setWidth_of_le (by simpa using width_le f), BitVec.extractLsb'_eq_self]

end Calls

/-- The line kinds: what well-formedness asks for is that the line map selects the row (30_encoding.md R70). -/
theorem decode_line_of_wf {st : DState} {L : List Byte} {ovl : Bool} {k : LineKind}
    (h : (lineKind st L ovl == some k) = true) : decode (.line st L ovl) = .ok (lineInstr k L ovl) :=
  decodeLine_eq_ok_iff.2 ⟨k, beq_iff_eq.1 h, rfl⟩

/-- Settles O36. -/
theorem decodeUndoesEncode : Obligations.DecodeUndoesEncode := by
  intro i hwf
  cases i with
  | resetE | resetD | resetAll | eStart | eEof | eSinkfail | eRdfail => rfl
  | dEof | dTgtOk | dTgtIofail | dTgtResfail | dSinkfail | dRdfail => rfl
  | eSetmode m => exact decode_word_field isFieldRow_eSetmode decodeWord_of_selects_eSetmode m
  | eNamech c => exact decode_word_field isFieldRow_eNamech decodeWord_of_selects_eNamech c
  | eByte b => exact decode_word_field isFieldRow_eByte decodeWord_of_selects_eByte b
  | dChar c => exact decode_word_field isFieldRow_dChar decodeWord_of_selects_dChar c
  | dStart multi => exact congrArg Except.ok (decodeWord_dStart multi)
  | reserved w =>
    have hw : isCommand w = false := by simpa [Instr.WellFormed, Instr.wf] using hwf
    exact congrArg Except.ok (decodeWord_of_not_command hw)
  | lBegin | lSkip | lTerm | lBadlen | lData | lShort | lNoend => exact decode_line_of_wf hwf
  | lEmpty | lEnd => rfl
  | enc6 v => exact decode_call_one (f := .enc6) (mk := .enc6) (fun _ => rfl) v rfl
  | dec6 c => exact decode_call_one (f := .dec6) (mk := .dec6) (fun _ => rfl) c rfl
  | pack1 b0 => exact decode_call_one (f := .pack1) (mk := .pack1) (fun _ => rfl) b0 rfl
  | lenenc n => exact decode_call_one (f := .lenenc) (mk := .lenenc) (fun _ => rfl) n rfl
  | lendec c => exact decode_call_one (f := .lendec) (mk := .lendec) (fun _ => rfl) c rfl
  | lenneed n => exact decode_call_one (f := .lenneed) (mk := .lenneed) (fun _ => rfl) n hwf
  | lenchars n => exact decode_call_one (f := .lenchars) (mk := .lenchars) (fun _ => rfl) n hwf
  | pack2 b0 b1 => exact decode_call_setWidth (f := .pack2) (b0 ++ b1) (callInstr_pack2 b0 b1) rfl
  | unpack1 c0 c1 => exact decode_call_setWidth (f := .unpack1) (c0 ++ c1) (callInstr_unpack1 c0 c1) rfl
  | unpack2 c0 c1 c2 => exact decode_call_setWidth (f := .unpack2) (c0 ++ c1 ++ c2) (callInstr_unpack2 c0 c1 c2) rfl
  | pack3 b0 b1 b2 => exact decode_call (b0 ++ b1 ++ b2).isLt (callInstr_pack3 b0 b1 b2) rfl
  | unpack3 c0 c1 c2 c3 => exact decode_call (c0 ++ c1 ++ c2 ++ c3).isLt (callInstr_unpack3 c0 c1 c2 c3) rfl

/-! ## The mode operand of a header: O24 -/

theorem exists_octalDigit_of_range {d : Byte} (h : 0x30 ≤ d.toNat ∧ d.toNat ≤ 0x37) :
    ∃ x : BitVec 3, d = octalDigit x := by
  refine ⟨d.setWidth 3, BitVec.eq_of_toNat_eq ?_⟩
  simp [octalDigit]
  omega

theorem toNat_octalDigit (d : BitVec 3) : (octalDigit d).toNat = 0x30 + d.toNat := by
  simp [octalDigit]
  omega

/-- The digit enters bits the shift has freed, so the accumulator is added to, modulo its nine bits. -/
theorem toNat_modeStep_octalDigit (m : Mode) (d : BitVec 3) :
    (modeStep m (octalDigit d)).toNat = (8 * m.toNat + d.toNat) % 512 := by
  have hdisjoint : m <<< 3 &&& d.setWidth 9 = 0#9 := by
    ext i hi
    simp
    grind
  rw [modeStep_octalDigit, ← BitVec.add_eq_or_of_and_eq_zero _ _ hdisjoint, BitVec.toNat_add,
    BitVec.toNat_shiftLeft, BitVec.toNat_setWidth]
  omega

/-- One digit character into the value of an octal numeral. -/
def numeralStep (a : Nat) (d : Byte) : Nat := 8 * a + (d.toNat - 0x30)

/-- The mode accumulator follows the value of the numeral modulo 512, whatever was read before. -/
theorem toNat_foldl_modeStep {M : List Byte} (hM : ∀ d ∈ M, 0x30 ≤ d.toNat ∧ d.toNat ≤ 0x37) {m : Mode} {a : Nat}
    (hm : m.toNat = a % 512) : (M.foldl modeStep m).toNat = M.foldl numeralStep a % 512 := by
  induction M generalizing m a with
  | nil => exact hm
  | cons d M ih =>
    obtain ⟨hd, hM'⟩ := List.forall_mem_cons.1 hM
    obtain ⟨x, rfl⟩ := exists_octalDigit_of_range hd
    refine ih hM' ?_
    rw [toNat_modeStep_octalDigit, numeralStep, toNat_octalDigit, hm]
    omega

/-- Settles O24. -/
theorem modeIsTheNumeralModulo512 : Obligations.ModeIsTheNumeralModulo512 := fun _ hM =>
  toNat_foldl_modeStep hM rfl

/-! ## The text of a data line: O9 -/

theorem enc6_range : ∀ v : Sextet, 0x21 ≤ (enc6 v).toNat ∧ (enc6 v).toNat ≤ 0x60 := by decide

theorem quadChars_range (q : Quad) : ∀ c ∈ quadChars q, 0x21 ≤ c.toNat ∧ c.toNat ≤ 0x60 := by
  simp only [quadChars, List.forall_mem_cons]
  exact ⟨enc6_range _, enc6_range _, enc6_range _, enc6_range _, by simp⟩

theorem groupChars_range (C : List Byte) : ∀ c ∈ groupChars C, 0x21 ≤ c.toNat ∧ c.toNat ≤ 0x60 := by
  induction C using groupChars.induct with
  | case1 => simp [groupChars]
  | case2 b0 => exact quadChars_range _
  | case3 b0 b1 => exact quadChars_range _
  | case4 b0 b1 b2 rest ih => exact List.forall_mem_append.2 ⟨quadChars_range _, ih⟩

theorem dataText_range (C : List Byte) : ∀ c ∈ dataText C, 0x21 ≤ c.toNat ∧ c.toNat ≤ 0x60 :=
  List.forall_mem_cons.2 ⟨enc6_range _, groupChars_range C⟩

/-- A count that is not 0 has the character 0x20 above it (30_encoding.md R68). -/
theorem lenenc_countSextet {n : Nat} (hpos : 1 ≤ n) (hlen : n ≤ 45) :
    lenenc (countSextet n) = BitVec.ofNat 8 (n + 0x20) := by
  have hn := toNat_countSextet hlen
  have hne : countSextet n ≠ 0 := fun h => by simp [h] at hn; omega
  refine BitVec.eq_of_toNat_eq ?_
  rw [lenenc, enc6, if_neg hne]
  simp [Config.offset, hn]

/-- Settles O9. -/
theorem dataLineShape : Obligations.DataLineShape := by
  intro C hpos hlen
  refine ⟨dataText C, dataLine_eq C, ?_, dataText_range C, congrArg some (lenenc_countSextet hpos hlen)⟩
  rw [dataText, List.length_cons, groupChars_length, Nat.add_comm]

/-! ## The line map: O20 -/

/-- The length characters of count 0, those of the terminator row of R70. -/
theorem dec6_eq_zero_iff : ∀ c : Byte, (dec6 c).toNat = 0 ↔ c &&& 0x3F = 0x20 := by decide

section DataKind

variable {c : Byte} {cs : List Byte}

theorem dataKind_of_zero (h : (dec6 c).toNat = 0) : dataKind (c :: cs) = .lTerm := by
  have hclass : lenClass (dec6 c) = .zero := if_pos h
  simp [dataKind, lendec, hclass]

theorem dataKind_of_data (hpos : 1 ≤ (dec6 c).toNat) (hlen : (dec6 c).toNat ≤ 45) :
    dataKind (c :: cs) = if lenneed (dec6 c) ≤ cs.length then .lData else .lShort := by
  have hclass : lenClass (dec6 c) = .data := (if_neg (by omega)).trans (if_pos hlen)
  simp [dataKind, lendec, hclass]

theorem dataKind_of_bad (h : 46 ≤ (dec6 c).toNat) : dataKind (c :: cs) = .lBadlen := by
  have hclass : lenClass (dec6 c) = .bad := (if_neg (by omega)).trans (if_neg (Nat.not_le.2 h))
  simp [dataKind, lendec, hclass]

/-- The rows of R70 for a line of the data section that is not empty. -/
theorem dataKind_cons_iff :
      (dataKind (c :: cs) = .lTerm ↔ (dec6 c).toNat = 0) ∧
      (dataKind (c :: cs) = .lBadlen ↔ 46 ≤ (dec6 c).toNat) ∧
      (dataKind (c :: cs) = .lData ↔ 1 ≤ (dec6 c).toNat ∧ (dec6 c).toNat ≤ 45 ∧ lenneed (dec6 c) ≤ cs.length) ∧
      (dataKind (c :: cs) = .lShort ↔ 1 ≤ (dec6 c).toNat ∧ (dec6 c).toNat ≤ 45 ∧ cs.length < lenneed (dec6 c)) := by
  have hclass : (dec6 c).toNat = 0 ∨ (1 ≤ (dec6 c).toNat ∧ (dec6 c).toNat ≤ 45) ∨ 46 ≤ (dec6 c).toNat := by omega
  obtain h | ⟨hpos, hlen⟩ | h := hclass
  · simp [dataKind_of_zero h, h]
  · have hnz : (dec6 c).toNat ≠ 0 := by omega
    have hnb : ¬ 46 ≤ (dec6 c).toNat := by omega
    simp only [dataKind_of_data hpos hlen, hpos, hlen, hnz, hnb]
    split <;> simp <;> omega
  · have hnd : ¬ (dec6 c).toNat ≤ 45 := by omega
    simp [dataKind_of_bad h, h, hnd]
    omega

end DataKind

theorem take_eq_beginTag_iff {L : List Byte} :
    L.take 6 = Config.beginTag ↔ 6 ≤ L.length ∧ L.take 6 = [0x62, 0x65, 0x67, 0x69, 0x6E, 0x20] := by
  refine ⟨fun h => ⟨?_, h⟩, And.right⟩
  simpa [Config.beginTag] using congrArg List.length h

section OtherKinds

variable {L : List Byte} {ovl : Bool}

theorem lineKind_dSeek_eq_lBegin_iff : lineKind .dSeek L ovl = some .lBegin ↔ L.take 6 = Config.beginTag := by
  simp [lineKind]

theorem lineKind_dSeek_eq_lSkip_iff : lineKind .dSeek L ovl = some .lSkip ↔ ¬ L.take 6 = Config.beginTag := by
  simp [lineKind]

theorem lineKind_dEnd_eq_lEnd_iff : lineKind .dEnd L ovl = some .lEnd ↔ L = Config.endTag ∧ ovl = false := by
  simp [lineKind]

theorem lineKind_dEnd_eq_lNoend_iff :
    lineKind .dEnd L ovl = some .lNoend ↔ ¬ (L = Config.endTag ∧ ovl = false) := by
  simp [lineKind]

theorem lineKind_eq_none {st : DState} (h : st = .dIdle ∨ st = .dWait ∨ st = .dHalt) : lineKind st L ovl = none := by
  obtain rfl | rfl | rfl := h <;> rfl

end OtherKinds

/-- Settles O20. -/
theorem lineMapRows : Obligations.LineMapRows := by
  intro L ovl
  refine ⟨lineKind_dSeek_eq_lBegin_iff.trans take_eq_beginTag_iff,
    lineKind_dSeek_eq_lSkip_iff.trans take_eq_beginTag_iff.not, rfl, ?data, lineKind_dEnd_eq_lEnd_iff,
    lineKind_dEnd_eq_lNoend_iff, fun _ => lineKind_eq_none⟩
  case data =>
    rintro c cs rfl
    rw [← dec6_eq_zero_iff]
    simpa only [lineKind, Option.some.injEq] using dataKind_cons_iff

/-! ## Sample encodings: O41 -/

/-- Settles O41. -/
theorem sampleEncodingsDecode : Obligations.SampleEncodingsDecode := by
  unfold Obligations.SampleEncodingsDecode
  decide

end Sys2Proof.Proofs

namespace Sys2Proof.Proofs

open Sys2Proof.Machine

/-! ## The character functions: O29, O30 -/

section CharacterFunctions

variable (v : Sextet) (c : Byte)

/-- A unit function leaves its outputs on the function output; nothing else but the host's answer changes. -/
theorem answer_eq_next (r : FnResult) (s : State) :
    answer r s = .next { s with link := { s.link with ack := .performed, fnOut := some r } } := rfl

theorem exec_enc6 (s : State) : exec (.enc6 v) s = answer (.char (enc6 v)) s := rfl

theorem exec_dec6 (s : State) : exec (.dec6 c) s = answer (.sextet (dec6 c)) s := rfl

/-- The sum of R90 never carries out of 8 bits. -/
theorem toNat_enc6 : (enc6 v).toNat = if v = 0 then 0x60 else v.toNat + 0x20 := by
  unfold enc6
  split
  · rfl
  · simp [Config.offset]
    omega

/-- The mask of R91 keeps the six bits that the sextet has anyway, and in six bits taking 32 off is adding it. -/
theorem dec6_eq_add : dec6 c = c.setWidth 6 + 0x20 := by
  have hmask : Config.sextetMask.setWidth 6 = BitVec.allOnes 6 := rfl
  have hoffset : (-Config.offset).setWidth 6 = 0x20 := rfl
  rw [dec6, BitVec.setWidth_and, hmask, BitVec.and_allOnes, BitVec.sub_eq_add_neg, BitVec.setWidth_add _ _ (by decide),
    hoffset]

theorem toNat_dec6 : (dec6 c).toNat = ((c.toNat + 256 - 0x20) % 256) % 64 := by
  rw [dec6_eq_add, BitVec.toNat_add, BitVec.toNat_setWidth]
  simp
  omega

/-- Adding 32 modulo 64 flips bit 5 (R95). -/
theorem add_eq_xor_topBit : ∀ x : Sextet, x + 0x20 = x ^^^ 0x20 := by decide

theorem dec6_eq_xor : dec6 c = c.extractLsb' 0 6 ^^^ 0x20 := by
  rw [dec6_eq_add, add_eq_xor_topBit, BitVec.setWidth_eq_extractLsb' (by decide)]

theorem getLsbD_five_eq : v.getLsbD 5 = decide (32 ≤ v.toNat) := BitVec.msb_eq_decide v

theorem toNat_append_eq {m n : Nat} (x : BitVec m) (y : BitVec n) : (x ++ y).toNat = x.toNat * 2 ^ n + y.toNat := by
  rw [BitVec.toNat_append, ← Nat.shiftLeft_add_eq_or_of_lt y.isLt, Nat.shiftLeft_eq]

/-- The value of an 8-bit word put together from bit 7, bit 6 and a sextet. -/
theorem toNat_bit7_bit6_sextet (x y : BitVec 1) (z : Sextet) :
    (x ++ y ++ z : Byte).toNat = 128 * x.toNat + 64 * y.toNat + z.toNat := by
  refine (toNat_append_eq (x ++ y) z).trans ?_
  rw [toNat_append_eq]
  omega

/-- The cases of R95: `v` is 0, or adding 32 leaves bit 6 clear, or it carries into bit 6. -/
theorem enc6_eq_gates :
    enc6 v = BitVec.ofBool false ++ BitVec.ofBool (v.getLsbD 5 || decide (v = 0)) ++ (v ^^^ 0x20) := by
  obtain rfl | hv := eq_or_ne v 0
  · rfl
  · refine BitVec.eq_of_toNat_eq ?_
    rw [toNat_enc6, if_neg hv, toNat_bit7_bit6_sextet, ← add_eq_xor_topBit, getLsbD_five_eq, decide_eq_false hv]
    obtain hlow | hhigh := Nat.lt_or_ge v.toNat 32
    · simp [Nat.not_le.2 hlow]
      omega
    · simp [hhigh]
      omega

theorem dec6_add_period : dec6 (c + 64) = dec6 c := by
  have hperiod : (64 : Byte).setWidth 6 = 0#6 := rfl
  rw [dec6_eq_add, dec6_eq_add, BitVec.setWidth_add _ _ (by decide), hperiod, BitVec.add_zero]

theorem mod_eq_dec6_add : c.toNat % 64 = ((dec6 c).toNat + 32) % 64 := by
  rw [toNat_dec6]
  omega

/-- `ENC6` writes characters 0x21 to 0x60 only, and these are one whole period of `DEC6`. -/
theorem enc6_dec6_eq_iff : enc6 (dec6 c) = c ↔ 0x21 ≤ c.toNat ∧ c.toNat ≤ 0x60 := by
  constructor
  case mp =>
    intro h
    simpa only [h] using enc6_range (dec6 c)
  case mpr =>
    rintro ⟨hlow, hhigh⟩
    refine BitVec.eq_of_toNat_eq ?_
    have hzero : dec6 c = 0 ↔ (dec6 c).toNat = 0 := BitVec.toNat_eq
    rw [toNat_enc6]
    simp only [hzero, toNat_dec6]
    split <;> omega

end CharacterFunctions

/-- Settles O29. -/
theorem characterFunctionsAnswer : Obligations.CharacterFunctionsAnswer := fun v c s =>
  ⟨⟨enc6 v, toNat_enc6 v, (exec_enc6 v s).trans (answer_eq_next _ s)⟩,
    ⟨dec6 c, toNat_dec6 c, (exec_dec6 c s).trans (answer_eq_next _ s)⟩⟩

/-- Settles O30. -/
theorem characterMapLaws : Obligations.CharacterMapLaws :=
  ⟨toNat_enc6, toNat_dec6, enc6_eq_gates, dec6_eq_xor, dec6_enc6, dec6_add_period, mod_eq_dec6_add, enc6_dec6_eq_iff⟩

end Sys2Proof.Proofs

namespace Sys2Proof.Proofs

open Sys2Proof.Machine

/-! ## The packing functions: O31, O32, O33

Each output of PK34 as a number: widened to 16 bits no bit is lost by a shift (41_pack34.md R108), and the two parts of
an output do not overlap, so that or is sum. The 24-bit word of a group is then the same number whether it is put
together from the bytes or from the sextets. -/

section PackValues

theorem toNat_toSextet (v : BitVec 16) : (toSextet v).toNat = v.toNat % 2 ^ 6 := by
  have hmask : (0x3F#16).setWidth 6 = BitVec.allOnes 6 := rfl
  rw [toSextet, BitVec.setWidth_and, hmask, BitVec.and_allOnes, BitVec.toNat_setWidth]

theorem toNat_toByte (v : BitVec 16) : (toByte v).toNat = v.toNat % 2 ^ 8 := by
  have hmask : (0xFF#16).setWidth 8 = BitVec.allOnes 8 := rfl
  rw [toByte, BitVec.setWidth_and, hmask, BitVec.and_allOnes, BitVec.toNat_setWidth]

theorem toNat_wide {m : Nat} (x : BitVec m) (hm : m ≤ 16) : (wide x).toNat = x.toNat :=
  BitVec.toNat_setWidth_of_le hm

/-- The part shifted left by `k` and the part cut to `k` bits stand side by side. -/
theorem toNat_wide_shiftLeft_or {m k : Nat} (x : BitVec m) {v : BitVec 16} (hm : m + k ≤ 16) (hv : v.toNat < 2 ^ k) :
    (wide x <<< k ||| v).toNat = x.toNat * 2 ^ k + v.toNat := by
  have hfits : x.toNat * 2 ^ k < 2 ^ 16 := calc
    x.toNat * 2 ^ k < 2 ^ m * 2 ^ k := Nat.mul_lt_mul_of_pos_right x.isLt (Nat.two_pow_pos k)
    _ = 2 ^ (m + k) := (Nat.pow_add 2 m k).symm
    _ ≤ 2 ^ 16 := Nat.pow_le_pow_right (by decide) hm
  rw [BitVec.toNat_or, BitVec.toNat_shiftLeft, toNat_wide x (by omega), Nat.shiftLeft_eq, Nat.mod_eq_of_lt hfits,
    ← Nat.shiftLeft_eq, Nat.shiftLeft_add_eq_or_of_lt hv]

theorem toNat_wide_ushiftRight {m : Nat} (x : BitVec m) (j : Nat) (hm : m ≤ 16) :
    (wide x >>> j).toNat = x.toNat / 2 ^ j := by
  rw [BitVec.toNat_ushiftRight, toNat_wide x hm, Nat.shiftRight_eq_div_pow]

theorem toNat_wide_shiftLeft_or_ushiftRight {m n k j : Nat} (x : BitVec m) (y : BitVec n) (hm : m + k ≤ 16)
    (hn : n ≤ 16) (hj : n = k + j) :
    (wide x <<< k ||| wide y >>> j).toNat = x.toNat * 2 ^ k + y.toNat / 2 ^ j := by
  have hy := toNat_wide_ushiftRight y j hn
  have hlow : y.toNat / 2 ^ j < 2 ^ k := Nat.div_lt_of_lt_mul (by simpa [hj, Nat.pow_add, Nat.mul_comm] using y.isLt)
  rw [toNat_wide_shiftLeft_or x hm (hy ▸ hlow), hy]

variable (b0 b1 b2 : Byte) (c0 c1 c2 c3 : Sextet)

theorem toNat_pack3 :
    (pack3 b0 b1 b2).s0.toNat = b0.toNat / 2 ^ 2 ∧
    (pack3 b0 b1 b2).s1.toNat = (b0.toNat * 2 ^ 4 + b1.toNat / 2 ^ 4) % 2 ^ 6 ∧
    (pack3 b0 b1 b2).s2.toNat = (b1.toNat * 2 ^ 2 + b2.toNat / 2 ^ 6) % 2 ^ 6 ∧
    (pack3 b0 b1 b2).s3.toNat = b2.toNat % 2 ^ 6 := by
  simp only [pack3, toNat_toSextet]
  refine ⟨?_, ?_, ?_, ?_⟩
  · rw [toNat_wide_ushiftRight b0 2 (by decide)]
    omega
  · rw [toNat_wide_shiftLeft_or_ushiftRight b0 b1 (by decide) (by decide) (by decide)]
  · rw [toNat_wide_shiftLeft_or_ushiftRight b1 b2 (by decide) (by decide) (by decide)]
  · rw [toNat_wide b2 (by decide)]

theorem toNat_unpackO0 : (unpackO0 c0 c1).toNat = c0.toNat * 2 ^ 2 + c1.toNat / 2 ^ 4 := by
  rw [unpackO0, toNat_toByte, toNat_wide_shiftLeft_or_ushiftRight c0 c1 (by decide) (by decide) (by decide)]
  omega

theorem toNat_unpackO1 : (unpackO1 c1 c2).toNat = (c1.toNat * 2 ^ 4 + c2.toNat / 2 ^ 2) % 2 ^ 8 := by
  rw [unpackO1, toNat_toByte, toNat_wide_shiftLeft_or_ushiftRight c1 c2 (by decide) (by decide) (by decide)]

theorem toNat_unpackO2 : (unpackO2 c2 c3).toNat = (c2.toNat * 2 ^ 6 + c3.toNat) % 2 ^ 8 := by
  have hc3 := toNat_wide c3 (by decide)
  rw [unpackO2, toNat_toByte, toNat_wide_shiftLeft_or c2 (by decide) (hc3 ▸ c3.isLt), hc3]

end PackValues

section Word

variable (b0 b1 b2 : Byte) (c0 c1 c2 c3 : Sextet)

theorem toNat_bytes_append :
    (b0 ++ b1 ++ b2 : BitVec 24).toNat = (b0.toNat * 2 ^ 8 + b1.toNat) * 2 ^ 8 + b2.toNat := by
  refine (toNat_append_eq (b0 ++ b1) b2).trans ?_
  rw [toNat_append_eq]

theorem toNat_sextets_append :
    (c0 ++ c1 ++ c2 ++ c3 : BitVec 24).toNat =
      ((c0.toNat * 2 ^ 6 + c1.toNat) * 2 ^ 6 + c2.toNat) * 2 ^ 6 + c3.toNat := by
  refine (toNat_append_eq (c0 ++ c1 ++ c2) c3).trans ?_
  rw [toNat_append_eq, toNat_append_eq]

/-- The sextets of a group are its 24-bit word, cut in four (41_pack34.md R109). -/
theorem pack3_append :
    (pack3 b0 b1 b2).s0 ++ (pack3 b0 b1 b2).s1 ++ (pack3 b0 b1 b2).s2 ++ (pack3 b0 b1 b2).s3 = b0 ++ b1 ++ b2 := by
  obtain ⟨h0, h1, h2, h3⟩ := toNat_pack3 b0 b1 b2
  refine BitVec.eq_of_toNat_eq ((toNat_sextets_append _ _ _ _).trans (Eq.trans ?_ (toNat_bytes_append _ _ _).symm))
  rw [h0, h1, h2, h3]
  omega

/-- The bytes of a group are its 24-bit word, cut in three (41_pack34.md R109). -/
theorem unpack3_append : unpackO0 c0 c1 ++ unpackO1 c1 c2 ++ unpackO2 c2 c3 = c0 ++ c1 ++ c2 ++ c3 := by
  refine BitVec.eq_of_toNat_eq ((toNat_bytes_append _ _ _).trans (Eq.trans ?_ (toNat_sextets_append _ _ _ _).symm))
  rw [toNat_unpackO0, toNat_unpackO1, toNat_unpackO2]
  omega

/-- A word says which four sextets it was put together from. -/
theorem sextets_eq_of_append_eq {c0 c1 c2 c3 d0 d1 d2 d3 : Sextet}
    (h : c0 ++ c1 ++ c2 ++ c3 = d0 ++ d1 ++ d2 ++ d3) : c0 = d0 ∧ c1 = d1 ∧ c2 = d2 ∧ c3 = d3 := by
  obtain ⟨hc0, hc1, hc2, hc3⟩ := extractLsb'_append_four c0 c1 c2 c3
  obtain ⟨hd0, hd1, hd2, hd3⟩ := extractLsb'_append_four d0 d1 d2 d3
  rw [h] at hc0 hc1 hc2 hc3
  exact ⟨hc0.symm.trans hd0, hc1.symm.trans hd1, hc2.symm.trans hd2, hc3.symm.trans hd3⟩

theorem unpack3_pack3 :
    unpack3 (pack3 b0 b1 b2).s0 (pack3 b0 b1 b2).s1 (pack3 b0 b1 b2).s2 (pack3 b0 b1 b2).s3 =
      { o0 := b0, o1 := b1, o2 := b2 } :=
  Triple.mk.injEq .. ▸ ⟨unpackO0_pack3 b0 b1 b2, unpackO1_pack3 b0 b1 b2, unpackO2_pack3 b0 b1 b2⟩

/-- Both are the same word cut at the same places (41_pack34.md R106). -/
theorem pack3_unpack3 :
    pack3 (unpackO0 c0 c1) (unpackO1 c1 c2) (unpackO2 c2 c3) = { s0 := c0, s1 := c1, s2 := c2, s3 := c3 } := by
  have hword := (pack3_append (unpackO0 c0 c1) (unpackO1 c1 c2) (unpackO2 c2 c3)).trans (unpack3_append c0 c1 c2 c3)
  exact Quad.mk.injEq .. ▸ sextets_eq_of_append_eq hword

/-- Sextets that agree above bit `k` agree in what is left of them. -/
theorem toNat_div_eq_of_ushiftRight_eq {k : Nat} {c c' : Sextet} (h : c >>> k = c' >>> k) :
    c.toNat / 2 ^ k = c'.toNat / 2 ^ k := by
  simpa only [BitVec.toNat_ushiftRight, Nat.shiftRight_eq_div_pow] using congrArg BitVec.toNat h

theorem unpackO0_congr {c1' : Sextet} (h : c1 >>> 4 = c1' >>> 4) : unpackO0 c0 c1 = unpackO0 c0 c1' := by
  refine BitVec.eq_of_toNat_eq ?_
  rw [toNat_unpackO0, toNat_unpackO0, toNat_div_eq_of_ushiftRight_eq h]

theorem unpackO1_congr {c2' : Sextet} (h : c2 >>> 2 = c2' >>> 2) : unpackO1 c1 c2 = unpackO1 c1 c2' := by
  refine BitVec.eq_of_toNat_eq ?_
  rw [toNat_unpackO1, toNat_unpackO1, toNat_div_eq_of_ushiftRight_eq h]

end Word

section Instructions

variable (b0 b1 b2 : Byte) (c0 c1 c2 c3 : Sextet) (s : State)

theorem exec_pack3 : exec (.pack3 b0 b1 b2) s = answer (pack3 b0 b1 b2).result s := rfl

/-- A missing byte is the constant 0x00 (41_pack34.md R101). -/
theorem exec_pack2 : exec (.pack2 b0 b1) s = answer (pack3 b0 b1 0x00).result s := rfl

theorem exec_pack1 : exec (.pack1 b0) s = answer (pack3 b0 0x00 0x00).result s := rfl

theorem exec_unpack3 : exec (.unpack3 c0 c1 c2 c3) s =
    answer (.bytes [unpackO0 c0 c1, unpackO1 c1 c2, unpackO2 c2 c3]) s := rfl

theorem exec_unpack2 : exec (.unpack2 c0 c1 c2) s = answer (.bytes [unpackO0 c0 c1, unpackO1 c1 c2]) s := rfl

theorem exec_unpack1 : exec (.unpack1 c0 c1) s = answer (.bytes [unpackO0 c0 c1]) s := rfl

variable {b0 b1 b2 s} in
/-- An instruction that answers the sextets of a group answers the cuts of its word. -/
theorem exists_cuts_of_exec_eq {i : Instr} (h : exec i s = answer (pack3 b0 b1 b2).result s) :
    ∃ s0 s1 s2 s3 : Sextet, s0 ++ s1 ++ s2 ++ s3 = b0 ++ b1 ++ b2 ∧
      exec i s = .next { s with link := { s.link with ack := .performed, fnOut := some (.quad s0 s1 s2 s3) } } :=
  ⟨_, _, _, _, pack3_append b0 b1 b2, h.trans (answer_eq_next _ s)⟩

end Instructions

/-- Settles O31. -/
theorem packingCutsTheWord : Obligations.PackingCutsTheWord := fun b0 b1 b2 s =>
  ⟨exists_cuts_of_exec_eq (exec_pack3 b0 b1 b2 s), exists_cuts_of_exec_eq (exec_pack2 b0 b1 s),
    exists_cuts_of_exec_eq (exec_pack1 b0 s)⟩

/-- Settles O32. -/
theorem unpackingCutsTheWord : Obligations.UnpackingCutsTheWord := fun c0 c1 c2 c3 s =>
  ⟨unpackO0 c0 c1, unpackO1 c1 c2, unpackO2 c2 c3, unpack3_append c0 c1 c2 c3,
    (exec_unpack3 c0 c1 c2 c3 s).trans (answer_eq_next _ s), (exec_unpack2 c0 c1 c2 s).trans (answer_eq_next _ s),
    (exec_unpack1 c0 c1 s).trans (answer_eq_next _ s)⟩

/-- Settles O33. -/
theorem packAndUnpackAreInverse : Obligations.PackAndUnpackAreInverse :=
  ⟨unpack3_pack3, pack3_unpack3,
    fun b0 b1 => Prod.ext (unpackO0_pack3 b0 b1 0x00) (unpackO1_pack3 b0 b1 0x00),
    fun b0 => unpackO0_pack3 b0 0x00 0x00,
    fun c0 c1 _ _ h => congrArg (unpackO0 c0 c1, ·) (unpackO1_congr c1 _ h),
    fun c0 _ _ h => unpackO0_congr c0 _ h⟩

/-! ## A data line read back: O54 -/

/-- Settles O54. -/
theorem encodedLineDecodesToItsChunk : Obligations.EncodedLineDecodesToItsChunk := by
  intro C hpos hlen
  have hkind := lineKind_dataText (List.length_pos_iff.1 hpos) hlen
  exact ⟨dataText C, dataLine_eq C, decodeLine_eq_ok_iff.2 ⟨_, hkind, rfl⟩, lineBytes_dataText hlen⟩

end Sys2Proof.Proofs

/-! Proofs of the statements of 42_linelen.md: the length functions run as instructions (O34), and how the count the
decoder needs compares with the count the encoder emits (O35). -/

namespace Sys2Proof.Proofs

open Sys2Proof.Machine

section LengthCounts

variable {n : Sextet}

theorem countOk_iff : countOk n = true ↔ 1 ≤ n.toNat ∧ n.toNat ≤ 45 :=
  Bool.and_eq_true_iff.trans (and_congr decide_eq_true_iff decide_eq_true_iff)

theorem restChars_eq (r : Nat) : restChars r = if r = 0 then 0 else if r = 1 then 2 else 3 := by
  match r with
  | 0 => rfl
  | 1 => rfl
  | r + 2 => simp [restChars]

/-- `LENNEED` on the counts it is stated for (42_linelen.md R122). -/
theorem lenneed_eq (hpos : 1 ≤ n.toNat) (hlen : n.toNat ≤ 45) :
    lenneed n = 4 * (n.toNat / 3) + (if n.toNat % 3 = 0 then 0 else if n.toNat % 3 = 1 then 2 else 3) :=
  (if_pos (countOk_iff.2 ⟨hpos, hlen⟩)).trans (congrArg (4 * (n.toNat / 3) + ·) (restChars_eq (n.toNat % 3)))

/-- `LENCHARS` on the counts it is stated for (42_linelen.md R125). -/
theorem lenchars_eq (hpos : 1 ≤ n.toNat) (hlen : n.toNat ≤ 45) : lenchars n = 4 * ((n.toNat + 2) / 3) :=
  if_pos (countOk_iff.2 ⟨hpos, hlen⟩)

/-- A last group of one or two bytes is emitted whole: a character more than it needs for each byte it lacks. -/
theorem lenneed_add_eq_lenchars (hpos : 1 ≤ n.toNat) (hlen : n.toNat ≤ 45) :
    lenneed n + (3 - n.toNat % 3) % 3 = lenchars n := by
  rw [lenneed_eq hpos hlen, lenchars_eq hpos hlen]
  split_ifs <;> omega

end LengthCounts

section Instructions

variable (n : Sextet) (c : Byte) (s : State)

theorem exec_lenenc : exec (.lenenc n) s = answer (.char (enc6 n)) s := rfl

theorem exec_lendec : exec (.lendec c) s = answer (.counted (dec6 c) (lenClass (dec6 c))) s := rfl

theorem exec_lenneed : exec (.lenneed n) s = answer (.count (lenneed n)) s := rfl

theorem exec_lenchars : exec (.lenchars n) s = answer (.count (lenchars n)) s := rfl

end Instructions

/-- Settles O34. -/
theorem lengthFunctionsAnswer : Obligations.LengthFunctionsAnswer := fun n c s =>
  ⟨(exec_lenenc n s).trans (answer_eq_next _ s), (exec_lendec c s).trans (answer_eq_next _ s),
    ⟨lenneed n, (exec_lenneed n s).trans (answer_eq_next _ s), lenneed_eq⟩,
    ⟨lenchars n, (exec_lenchars n s).trans (answer_eq_next _ s), lenchars_eq⟩⟩

/-- Settles O35. -/
theorem neededCharsAreAtMostEmitted : Obligations.NeededCharsAreAtMostEmitted := by
  intro n hpos hlen
  have hchars := lenchars_eq hpos hlen
  have hmissing := lenneed_add_eq_lenchars hpos hlen
  refine ⟨lenneed_eq hpos hlen, hchars, Nat.le.intro hmissing, ?_, ?_⟩
  · omega
  · omega

end Sys2Proof.Proofs

/-! Proofs of the statements of 43_encoder_frame.md: the whole stream, written by ENC (O52, O53) and read by DEC in any
session (O55), the text the encoder writes (O6, O8), its commands (O3 to O5, O7, O10, O11), and the acceptance tables of
both units (O45). -/

namespace Sys2Proof.Proofs

open Sys2Proof.Machine

/-! ## The whole stream: O52, O55 -/

/-- Settles O52. -/
theorem encoderSessionEmitsTheStream : Obligations.EncoderSessionEmitsTheStream :=
  fun _ _ B _ hidle hempty hN hroom => runAll_encodeSession B hidle hempty (List.length_pos_iff.1 hN) hroom

/-- Settles O55: the target `nextStream` of the run is `Next()` as the statement writes it out. -/
theorem streamDecodesInAnySession : Obligations.StreamDecodesInAnySession :=
  fun _ _ B _ hp hname hseek hbuf hovl => runAll_feedStream B hp hname hseek (lineClear_iff.2 ⟨hbuf, hovl⟩)

/-! ## The groups of a chunk by their index: O8 -/

/-- The characters of group `g` of a chunk, 0x00 for a byte the chunk lacks (43_encoder_frame.md R136). -/
def groupAt (C : List Byte) (g : Nat) : List Byte :=
  quadChars (pack3 (C.getD (3 * g) 0) (C.getD (3 * g + 1) 0) (C.getD (3 * g + 2) 0))

/-- Past its first three bytes a chunk has the groups of what follows them. -/
theorem groupAt_succ (b0 b1 b2 : Byte) (C : List Byte) (g : Nat) :
    groupAt (b0 :: b1 :: b2 :: C) (g + 1) = groupAt C g := rfl

theorem groupChars_eq_flatMap_groupAt (C : List Byte) :
    groupChars C = (List.range ((C.length + 2) / 3)).flatMap (groupAt C) := by
  induction C using groupChars.induct with
  | case1 => rfl
  | case2 b0 => simp [groupChars, groupAt, pack1]
  | case3 b0 b1 => simp [groupChars, groupAt, pack2]
  | case4 b0 b1 b2 C ih =>
    have hgroups : ((b0 :: b1 :: b2 :: C).length + 2) / 3 = (C.length + 2) / 3 + 1 := by
      simp only [List.length_cons]
      omega
    simp only [groupChars, ih, hgroups, List.range_succ_eq_map, List.flatMap_cons, List.flatMap_map,
      Nat.succ_eq_add_one, groupAt_succ]
    rfl

/-- Settles O8. -/
theorem dataLineIsTheIndexedLoop : Obligations.DataLineIsTheIndexedLoop := by
  intro C _ _
  rw [dataLine, groupChars_eq_flatMap_groupAt]
  rfl

/-! ## The length of a stream: O53 -/

theorem length_dataLine (C : List Byte) : (dataLine C).length = 2 + 4 * ((C.length + 2) / 3) := by
  simp only [dataLine, List.length_append, List.length_singleton, groupChars_length]
  omega

/-- A line of 62 characters for each whole chunk, and the line of the rest. -/
theorem length_dataLines (B : List Byte) :
    (dataLines B).length = 62 * (B.length / 45) +
      if B.length % 45 ≠ 0 then 2 + 4 * ((B.length % 45 + 2) / 3) else 0 := by
  have hwhole : ∀ k ∈ List.range (B.length / 45), (dataLine ((B.drop (45 * k)).take 45)).length = 62 := by
    intro k hk
    have hk' := List.mem_range.1 hk
    have hlen : ((B.drop (45 * k)).take 45).length = 45 := by
      rw [List.length_take, List.length_drop]
      omega
    rw [length_dataLine, hlen]
  have hrest : (B.drop (45 * (B.length / 45))).length = B.length % 45 := by
    rw [List.length_drop]
    omega
  rw [dataLines, List.length_append, List.length_flatMap, List.map_congr_left hwhole, List.map_const',
    List.sum_replicate, List.length_range, smul_eq_mul, Nat.mul_comm, apply_ite List.length, length_dataLine, hrest,
    List.length_nil, ite_not]

/-- Settles O53. -/
theorem streamLengthFormula : Obligations.StreamLengthFormula := by
  intro m N B
  simp only [headerLine, streamBody, termLine, trailerLine, Config.beginTag, Config.endTag, List.length_append,
    List.length_cons, List.length_nil, length_dataLines]
  omega

/-! ## The octal numeral: O6 -/

section Octal

variable (m : Mode)

/-! The octal digits of a mode, as numbers. -/

theorem toNat_digit_two : (m.extractLsb' 6 3).toNat = m.toNat / 64 := by
  rw [BitVec.extractLsb'_toNat]
  omega

theorem toNat_digit_one : (m.extractLsb' 3 3).toNat = m.toNat / 8 % 8 := by
  rw [BitVec.extractLsb'_toNat]
  omega

theorem toNat_digit_zero : (m.extractLsb' 0 3).toNat = m.toNat % 8 := by
  rw [BitVec.extractLsb'_toNat]
  omega

/-- The size of the mode says which digits are written. -/
theorem octal_eq_ite : octal m =
    if 64 ≤ m.toNat then
      [octalDigit (m.extractLsb' 6 3), octalDigit (m.extractLsb' 3 3), octalDigit (m.extractLsb' 0 3)]
    else if 8 ≤ m.toNat then [octalDigit (m.extractLsb' 3 3), octalDigit (m.extractLsb' 0 3)]
    else [octalDigit (m.extractLsb' 0 3)] := by
  have htwo : m.extractLsb' 6 3 ≠ 0 ↔ 64 ≤ m.toNat := by
    rw [← BitVec.toNat_ne_iff_ne, toNat_digit_two]
    change m.toNat / 64 ≠ 0 ↔ _
    omega
  have hone : ¬ 64 ≤ m.toNat → (m.extractLsb' 3 3 ≠ 0 ↔ 8 ≤ m.toNat) := fun h => by
    rw [← BitVec.toNat_ne_iff_ne, toNat_digit_one]
    change m.toNat / 8 % 8 ≠ 0 ↔ _
    omega
  exact if_ctx_congr htwo (fun _ => rfl) fun h => if_congr (hone h) rfl rfl

end Octal

/-- Settles O6. -/
theorem octalIsTheShortestNumeral : Obligations.OctalIsTheShortestNumeral := by
  intro m
  refine ⟨?value, ?range, ?length⟩
  case value =>
    rw [octal_eq_ite]
    split_ifs
    all_goals
      simp only [List.foldl_cons, List.foldl_nil, toNat_octalDigit, toNat_digit_two, toNat_digit_one, toNat_digit_zero]
      omega
  case range =>
    intro c hc
    obtain ⟨d, rfl⟩ := exists_octalDigit_of_mem_octal c hc
    rw [toNat_octalDigit]
    omega
  case length =>
    rw [octal_eq_ite]
    simp only [apply_ite List.length, List.length_cons, List.length_nil]
    split_ifs <;> omega

/-! ## The commands of ENC: O3, O4, O5, O7, O10, O11 -/

/-- The acceptance table of ENC (43_encoder_frame.md R141): the states in which a command has a meaning. Of what is
no command of the table it asks nothing. -/
def encAccepts (i : Instr) (st : EState) : Prop :=
  match i with
  | .eSetmode _ | .eNamech _ | .eStart => st = .eIdle
  | .eByte _ | .eEof | .eRdfail => st = .eRun
  | .eSinkfail => st = .eRun ∨ st = .eDone
  | _ => True

section Refusals

variable {s : State}

/-- Outside the table a command to ENC is refused. -/
theorem exec_of_not_encAccepts {i : Instr} (h : ¬ encAccepts i s.enc.state) :
    exec i s = .next (s.refusedWith .badState) := by
  cases i with
  | eSetmode | eNamech | eStart =>
    simp only [exec, execESetmode, execENamech, execEStart]
    split
    case h_1 hst => exact absurd hst h
    all_goals rfl
  | eByte | eEof | eRdfail =>
    simp only [exec, execEByte, execEEof, execERdfail]
    split
    case h_2 hst => exact absurd hst h
    all_goals rfl
  | eSinkfail =>
    simp only [exec, execESinkfail]
    split
    case h_2 hst => exact absurd (.inl hst) h
    case h_3 hst => exact absurd (.inr hst) h
    all_goals rfl
  | _ => exact absurd trivial h

theorem exec_eNamech_of_full (h : s.enc.state = .eIdle) (hfull : ¬ s.enc.nlen < s.params.nameMax) (c : Byte) :
    exec (.eNamech c) s = .next (s.refusedWith .nameFull) := by
  simp [exec, execENamech, h, hfull, turnAway, State.setAck, State.refusedWith]

theorem exec_eStart_of_noName (h : s.enc.state = .eIdle) (hname : s.enc.nlen = 0) :
    exec .eStart s = .next (s.refusedWith .noName) := by
  simp [exec, execEStart, h, hname, turnAway, State.setAck, State.refusedWith]

end Refusals

section Performed

variable {s : State}

theorem exec_eSinkfail_of_run_or_done (h : s.enc.state = .eRun ∨ s.enc.state = .eDone) :
    exec .eSinkfail s = .next (s.performedWith { s.enc with err := .sinkIo, state := .eFail } s.dec [] []) := by
  obtain h | h := h <;> simp [exec, execESinkfail, h, raiseEnc, done_eq_performedWith]

theorem exec_eRdfail_of_run (h : s.enc.state = .eRun) :
    exec .eRdfail s = .next (s.performedWith { s.enc with err := .sourceIo, state := .eFail } s.dec [] []) := by
  simp [exec, execERdfail, h, raiseEnc, done_eq_performedWith]

theorem flushChunk_eq_eOutStr (s : State) :
    flushChunk s = s.eOutStr (if 0 < s.enc.cnt then dataLine s.enc.chunk else []) := by
  unfold flushChunk
  split
  case isTrue => rfl
  case isFalse => simp [State.eOutStr]

/-- The terminator line and the trailer line, character by character. -/
theorem termLine_append_trailerLine : termLine ++ trailerLine = [0x60, 0x0A, 0x65, 0x6E, 0x64, 0x0A] := by decide

end Performed

/-- Settles O3. -/
theorem setModeLoadsMode : Obligations.SetModeLoadsMode := by
  intro m s
  split
  case isTrue hidle => exact exec_eSetmode_of_idle hidle m
  case isFalse hidle => exact exec_of_not_encAccepts hidle

/-- Settles O4. -/
theorem nameCharAppendsUntilFull : Obligations.NameCharAppendsUntilFull := by
  intro c s
  split_ifs with hidle hroom
  · exact exec_of_not_encAccepts hidle
  · exact exec_eNamech_of_room (not_not.1 hidle) hroom c
  · exact exec_eNamech_of_full (not_not.1 hidle) hroom c

/-- Settles O5. -/
theorem startEmitsWholeHeader : Obligations.StartEmitsWholeHeader := by
  intro s
  split_ifs with hidle hname
  · exact exec_of_not_encAccepts hidle
  · exact exec_eStart_of_noName (not_not.1 hidle) hname
  · exact exec_eStart_of_name (not_not.1 hidle) fun h => hname (congrArg List.length h)

/-- Settles O7. -/
theorem byteEmitsLineAtFortyFifth : Obligations.ByteEmitsLineAtFortyFifth := by
  intro b s
  split_ifs with hrun hlast
  · exact exec_of_not_encAccepts hrun
  · exact exec_eByte_of_last (not_not.1 hrun) hlast b
  · exact exec_eByte_of_not_last (not_not.1 hrun) hlast b

/-- Settles O10. -/
theorem eofFinishesTheStream : Obligations.EofFinishesTheStream := by
  intro s
  split
  case isTrue hrun => exact exec_of_not_encAccepts hrun
  case isFalse hrun =>
    simp [exec, execEEof, not_not.1 hrun, finishStream, flushChunk_eq_eOutStr, termLine_append_trailerLine,
      done_eq_performedWith]

/-- Settles O11. -/
theorem encoderFailuresLatchTheCode : Obligations.EncoderFailuresLatchTheCode := by
  intro s
  constructor
  · split
    case isTrue hst => exact exec_eSinkfail_of_run_or_done hst
    case isFalse hst => exact exec_of_not_encAccepts hst
  · split
    case isTrue hrun => exact exec_eRdfail_of_run hrun
    case isFalse hrun => exact exec_of_not_encAccepts hrun

/-! ## The acceptance tables: O45 -/

/-- The host is told that the command was performed, if only as a no-operation (44_decoder_frame.md R178). -/
def Accepted (o : Out) : Prop := ∃ t, o = .next t ∧ t.link.ack = .performed

section Accepted

variable {s : State} {r : Reason}

@[simp] theorem accepted_done : Accepted (done s) := ⟨_, rfl, rfl⟩

@[simp] theorem not_accepted_turnAway : ¬ Accepted (turnAway r s) := by
  rintro ⟨t, ⟨⟩, hack⟩
  cases hack

theorem accepted_of_eq_performedWith {o : Out} {e : Enc} {d : Dec} {cs : List Byte} {ys : List DSym}
    (h : o = .next (s.performedWith e d cs ys)) : Accepted o := ⟨_, h, rfl⟩

theorem not_accepted_of_eq_refusedWith {o : Out} (h : o = .next (s.refusedWith r)) : ¬ Accepted o :=
  h ▸ not_accepted_turnAway

/-- A line kind presented where the line map selects it. -/
theorem accepted_onLine {k : LineKind} {L : List Byte} {ovl : Bool} {eff : State}
    (h : lineKind s.dec.state L ovl = some k) : Accepted (onLine k L ovl s eff) := ⟨_, onLine_selected h, rfl⟩

end Accepted

section EncRows

variable {s : State}

theorem encAccepts_of_accepted {i : Instr} (h : Accepted (exec i s)) : encAccepts i s.enc.state :=
  by_contra fun hst => not_accepted_of_eq_refusedWith (exec_of_not_encAccepts hst) h

theorem accepted_eSetmode_iff (m : Mode) : Accepted (exec (.eSetmode m) s) ↔ s.enc.state = .eIdle :=
  ⟨encAccepts_of_accepted, fun h => accepted_of_eq_performedWith (exec_eSetmode_of_idle h m)⟩

theorem accepted_eNamech_iff (c : Byte) :
    Accepted (exec (.eNamech c) s) ↔ s.enc.state = .eIdle ∧ s.enc.nlen < s.params.nameMax := by
  refine ⟨fun h => ?_, fun ⟨hidle, hroom⟩ => accepted_of_eq_performedWith (exec_eNamech_of_room hidle hroom c)⟩
  have hidle := encAccepts_of_accepted h
  exact ⟨hidle, by_contra fun hfull => not_accepted_of_eq_refusedWith (exec_eNamech_of_full hidle hfull c) h⟩

theorem accepted_eStart_iff : Accepted (exec .eStart s) ↔ s.enc.state = .eIdle ∧ s.enc.nlen ≠ 0 := by
  refine ⟨fun h => ?_, fun ⟨hidle, hname⟩ => accepted_of_eq_performedWith
    (exec_eStart_of_name hidle fun hnil => hname (congrArg List.length hnil))⟩
  have hidle := encAccepts_of_accepted h
  exact ⟨hidle, fun hname => not_accepted_of_eq_refusedWith (exec_eStart_of_noName hidle hname) h⟩

theorem accepted_eByte_iff (b : Byte) : Accepted (exec (.eByte b) s) ↔ s.enc.state = .eRun :=
  ⟨encAccepts_of_accepted, fun h => by simp [exec, execEByte, h]⟩

theorem accepted_eEof_iff : Accepted (exec .eEof s) ↔ s.enc.state = .eRun :=
  ⟨encAccepts_of_accepted, fun h => by simp [exec, execEEof, h]⟩

theorem accepted_eSinkfail_iff : Accepted (exec .eSinkfail s) ↔ s.enc.state = .eRun ∨ s.enc.state = .eDone :=
  ⟨encAccepts_of_accepted, fun h => accepted_of_eq_performedWith (exec_eSinkfail_of_run_or_done h)⟩

theorem accepted_eRdfail_iff : Accepted (exec .eRdfail s) ↔ s.enc.state = .eRun :=
  ⟨encAccepts_of_accepted, fun h => accepted_of_eq_performedWith (exec_eRdfail_of_run h)⟩

end EncRows

section DecRows

variable {s : State}

/-- A finished line is always performed: the parser runs the row that the line map selects. -/
theorem accepted_runLine {L : List Byte} {ovl : Bool} (hst : readsChars s.dec.state) : Accepted (runLine L ovl s) := by
  unfold runLine
  split
  case h_1 hkind | h_2 hkind | h_9 hkind => exact accepted_onLine hkind
  case h_3 hkind | h_8 hkind => exact accepted_onLine (by rw [state_of_lineKind hkind]; rfl)
  case h_10 hkind => obtain h | h | h := hst <;> simp [h, lineKind] at hkind
  case h_4 hkind | h_5 hkind | h_6 hkind | h_7 hkind =>
    have hdata := state_of_lineKind hkind
    rw [hdata] at hkind
    exact accepted_onLine (by rw [hdata]; exact hkind)

theorem accepted_takeChar (hst : readsChars s.dec.state) (c : Byte) : Accepted (takeChar c s) := by
  unfold takeChar
  split
  case isTrue => exact accepted_done
  case isFalse => exact accepted_runLine hst

theorem accepted_dStart_iff (multi : Bool) :
    Accepted (exec (.dStart multi) s) ↔ s.dec.state = .dIdle ∨ s.dec.state = .dHalt := by
  cases hst : s.dec.state <;> simp [exec, execDStart, hst]

theorem accepted_dChar_iff (c : Byte) :
    Accepted (exec (.dChar c) s) ↔ s.dec.state ≠ .dIdle ∧ s.dec.state ≠ .dWait := by
  cases hst : s.dec.state with
  | dSeek | dData | dEnd =>
    have hreads : readsChars s.dec.state := by simp [readsChars, hst]
    simpa [exec_dChar_of_readsChars hreads] using accepted_takeChar hreads c
  | dIdle | dWait | dHalt => simp [exec, execDChar, hst]

theorem accepted_dEof_iff : Accepted (exec .dEof s) ↔ s.dec.state ≠ .dIdle ∧ s.dec.state ≠ .dWait := by
  cases hst : s.dec.state with
  | dSeek => cases hseen : s.dec.seen <;> simp [exec, execDEof, hst, hseen]
  | dIdle | dWait | dData | dEnd | dHalt => simp [exec, execDEof, hst]

/-- The answer of the host to a header (44_decoder_frame.md R160). -/
theorem accepted_inWait_iff {eff : State} : Accepted (inWait s eff) ↔ s.dec.state = .dWait := by
  cases hst : s.dec.state <;> simp [inWait, hst]

theorem accepted_dSinkfail_iff : Accepted (exec .dSinkfail s) ↔ s.dec.state = .dData ∨ s.dec.state = .dEnd := by
  cases hst : s.dec.state <;> simp [exec, execDSinkfail, hst]

theorem accepted_dRdfail_iff : Accepted (exec .dRdfail s) ↔ s.dec.state ≠ .dIdle ∧ s.dec.state ≠ .dWait := by
  cases hst : s.dec.state <;> simp [exec, execDRdfail, hst]

end DecRows

/-- Settles O45: the rows of the two tables, and the resets, which every state accepts. -/
theorem acceptanceTables : Obligations.AcceptanceTables := fun _ =>
  ⟨accepted_eSetmode_iff, accepted_eNamech_iff, accepted_eStart_iff, accepted_eByte_iff, accepted_eEof_iff,
    accepted_eSinkfail_iff, accepted_eRdfail_iff, accepted_dStart_iff, accepted_dChar_iff, accepted_dEof_iff,
    accepted_inWait_iff, accepted_inWait_iff, accepted_inWait_iff, accepted_dSinkfail_iff, accepted_dRdfail_iff,
    accepted_done, accepted_done, accepted_done⟩

end Sys2Proof.Proofs

/-! Proofs of the statements of 44_decoder_frame.md: the commands of DEC (O12 to O19), its line kinds (O21, O22, O25 to
O27), the tokens of a header (O23) and the isolation of a stream whose target failed (O56). Every fault of DEC ends a
command in the one way of `done_raiseDec`, and a finished line is the instruction of its row (`runLine_eq_exec`), so
that what was proved of the lines fed to the parser serves the line kinds run as instructions. -/

namespace Sys2Proof.Proofs

open Sys2Proof.Machine

/-! ## Fault entry and refusal -/

section Faults

variable (code : FaultCode) (st : DState) (s : State)

/-- A command that ends in a fault writes the fault registers and emits the one symbol (60_exceptions.md R200). -/
theorem done_raiseDec :
    done (raiseDec code st s) = .next (s.performedWith s.enc (s.dec.faulted code st) [] [.endCode code]) := by
  simp [raiseDec, Dec.faulted, done_eq_performedWith]

/-- The same where the unfinished line is dropped first (44_decoder_frame.md R175). -/
theorem done_raiseDec_clearLine : done (raiseDec code st (clearLine s)) =
    .next (s.performedWith s.enc (s.dec.cleared.faulted code st) [] [.endCode code]) :=
  done_raiseDec code st (clearLine s)

theorem onLine_raiseDec {k : LineKind} {L : List Byte} {ovl : Bool} (hkind : lineKind s.dec.state L ovl = some k) :
    onLine k L ovl s (raiseDec code st s) =
      .next (s.performedWith s.enc (s.dec.faulted code st) [] [.endCode code]) :=
  (onLine_selected hkind).trans (done_raiseDec code st s)

/-- A fault as an answer of the host to a header (44_decoder_frame.md R162, R163). -/
theorem inWait_raiseDec (h : s.dec.state = .dWait) : inWait s (raiseDec code st s) =
    .next (s.performedWith s.enc (s.dec.faulted code st) [] [.endCode code]) := by
  simp only [inWait, h, done_raiseDec]

theorem exec_dTgtIofail_of_wait (h : s.dec.state = .dWait) : exec .dTgtIofail s =
    .next (s.performedWith s.enc (s.dec.faulted .targetIo (nextStream s.dec)) [] [.endCode .targetIo]) :=
  inWait_raiseDec .targetIo _ s h

theorem exec_dTgtResfail_of_wait (h : s.dec.state = .dWait) : exec .dTgtResfail s =
    .next (s.performedWith s.enc (s.dec.faulted .resolve (nextStream s.dec)) [] [.endCode .resolve]) :=
  inWait_raiseDec .resolve _ s h

end Faults

/-- The acceptance table of DEC (44_decoder_frame.md R178): the states in which a command has a meaning. Of what is
no command of the table it asks nothing. -/
def decAccepts (i : Instr) (st : DState) : Prop :=
  match i with
  | .dStart _ => st = .dIdle ∨ st = .dHalt
  | .dChar _ | .dEof | .dRdfail => st ≠ .dIdle ∧ st ≠ .dWait
  | .dTgtOk | .dTgtIofail | .dTgtResfail => st = .dWait
  | .dSinkfail => st = .dData ∨ st = .dEnd
  | _ => True

section Refusals

variable {s : State}

theorem inWait_of_ne_wait {eff : State} (h : s.dec.state ≠ .dWait) : inWait s eff = .next (s.refusedWith .badState) := by
  unfold inWait
  split
  case h_3 hst => exact absurd hst h
  all_goals rfl

/-- Outside the table a command to DEC is refused. -/
theorem exec_of_not_decAccepts {i : Instr} (h : ¬ decAccepts i s.dec.state) :
    exec i s = .next (s.refusedWith .badState) := by
  cases i with
  | dStart =>
    simp only [exec, execDStart]
    split
    case h_1 hst => exact absurd (.inl hst) h
    case h_6 hst => exact absurd (.inr hst) h
    all_goals rfl
  | dChar | dEof | dRdfail =>
    simp only [exec, execDChar, execDEof, execDRdfail]
    split
    case h_1 | h_3 => rfl
    all_goals
      rename_i hst
      exact absurd (by simp [decAccepts, hst]) h
  | dTgtOk | dTgtIofail | dTgtResfail => exact inWait_of_ne_wait h
  | dSinkfail =>
    simp only [exec, execDSinkfail]
    split
    case h_4 hst => exact absurd (.inl hst) h
    case h_5 hst => exact absurd (.inr hst) h
    all_goals rfl
  | _ => exact absurd trivial h

end Refusals

/-! ## Line kinds as instructions -/

section LineKinds

variable {s : State} {k : LineKind} {L : List Byte} {ovl : Bool}

/-- A finished line is the instruction of the row that the line map selects (44_decoder_frame.md R151). -/
theorem runLine_eq_exec (hkind : lineKind s.dec.state L ovl = some k) :
    runLine L ovl s = exec (lineInstr k L ovl) s := by
  rw [runLine, hkind]
  cases k <;> rfl

/-- The parser takes a line only where it takes characters. -/
theorem readsChars_of_lineKind {st : DState} (hkind : lineKind st L ovl = some k) : readsChars st := by
  rw [state_of_lineKind hkind]
  cases k <;> simp [kindState, readsChars]

theorem exec_lSkip_of_not_begin (hst : s.dec.state = .dSeek) (hL : ¬ L.take 6 = Config.beginTag) :
    exec (.lSkip L ovl) s = .next (s.performedWith s.enc s.dec [] []) :=
  onLine_eq_performedWith (hst ▸ lineKind_dSeek_eq_lSkip_iff.2 hL)

end LineKinds

/-! ## The isolation of a failed target: O56 -/

section Isolation

variable {s : State}

/-- A whole line that is no header is passed over by a parser that seeks one. -/
theorem runAll_skippedLine {L : List Byte} (hL : L ≠ []) (hnl : Config.newline ∉ L) (hfit : lineFits s.params L.length)
    (htag : ¬ L.take 6 = Config.beginTag) (hst : s.dec.state = .dSeek) (hclear : s.dec.lineClear = true) :
    runAll ((L ++ [Config.newline]).map .dChar) s = .next (s.performedWith s.enc s.dec [] []) := by
  rw [runAll_line hL hnl (.inl hst) hfit hclear,
    runLine_eq_exec (by exact hst ▸ lineKind_dSeek_eq_lSkip_iff.2 htag), lineInstr,
    exec_lSkip_of_not_begin (by exact hst) htag, performedWith_performedWith]
  rfl

/-- A header begins with a letter, and no character of a data line is as high (42_linelen.md R125). -/
theorem take_dataText_ne_beginTag (C : List Byte) : ¬ (dataText C).take 6 = Config.beginTag := by
  intro h
  have hmem : (0x62 : Byte) ∈ (dataText C).take 6 := h ▸ List.mem_cons_self
  obtain ⟨-, hle⟩ := dataText_range C _ (List.mem_of_mem_take hmem)
  exact absurd hle (by decide)

theorem runAll_dataLine_of_seek {C : List Byte} (hlen : C.length ≤ 45) (hp : s.params.ok = true)
    (hst : s.dec.state = .dSeek) (hclear : s.dec.lineClear = true) :
    runAll ((dataLine C).map .dChar) s = .next (s.performedWith s.enc s.dec [] []) :=
  runAll_skippedLine (List.cons_ne_nil _ _) (newline_notMem_dataText C)
    (lineFits_of_le hp (length_dataText_le hlen)) (take_dataText_ne_beginTag C) hst hclear

theorem runAll_trailerLine_of_seek (hp : s.params.ok = true) (hst : s.dec.state = .dSeek)
    (hclear : s.dec.lineClear = true) :
    runAll (trailerLine.map .dChar) s = .next (s.performedWith s.enc s.dec [] []) :=
  have hlen : Config.endTag.length ≤ 64 := by decide
  runAll_skippedLine (by decide) (by decide) (lineFits_of_le hp hlen) (by decide) hst hclear

/-- The body of a stream fed to a parser that seeks a header is passed over line by line; the terminator line is the
data line of no bytes. -/
theorem runAll_streamBody_of_seek (B : List Byte) (hp : s.params.ok = true) (hst : s.dec.state = .dSeek)
    (hclear : s.dec.lineClear = true) :
    runAll ((streamBody B).map .dChar) s = .next (s.performedWith s.enc s.dec [] []) := by
  induction B using dataLines_induction generalizing s with
  | empty =>
    have hterm := runAll_dataLine_of_seek (C := []) (Nat.zero_le _) hp hst hclear
    have hbody : streamBody [] = dataLine [] ++ trailerLine := rfl
    rw [hbody, List.map_append, runAll_append_of_next hterm,
      runAll_trailerLine_of_seek (by exact hp) (by exact hst) (by exact hclear), performedWith_performedWith]
    rfl
  | chunk C B _ hlen hlines ih =>
    have hfirst := runAll_dataLine_of_seek hlen hp hst hclear
    have hbody : streamBody (C ++ B) = dataLine C ++ streamBody B := by simp [streamBody, hlines]
    rw [hbody, List.map_append, runAll_append_of_next hfirst, ih (by exact hp) (by exact hst) (by exact hclear),
      performedWith_performedWith]
    rfl

/-- A stream of a multi-stream session whose target cannot be created (44_decoder_frame.md R162, R180). -/
theorem runAll_feedStream_dTgtIofail {m : Mode} {N : List Byte} (B : List Byte) (hp : s.params.ok = true)
    (hname : nameOk s.params m N = true) (hst : s.dec.state = .dSeek) (hmulti : s.dec.multi = true)
    (hclear : s.dec.lineClear = true) :
    runAll (feedStream .dTgtIofail (headerLine m N) (streamBody B)) s = .next (s.performedWith s.enc
      { s.dec with
        seen := true, mode := m, name := N, err := .targetIo, anyFail := true, state := nextStream s.dec } []
      [.hdr m N, .endCode .targetIo]) := by
  have hheader := runAll_headerLine hname hst hclear
  have hnext : nextStream s.dec = .dSeek := if_pos hmulti
  simp only [feedStream, List.append_assoc, List.singleton_append]
  rw [runAll_append_of_next hheader, runAll_cons_of_next (exec_dTgtIofail_of_wait _ rfl),
    runAll_streamBody_of_seek B (by exact hp) (by exact hnext) (by exact hclear), performedWith_performedWith,
    performedWith_performedWith]
  rfl

end Isolation

/-- Settles O56: the first stream leaves the parser seeking a header, as the second one needs it. -/
theorem failedTargetIsIsolated : Obligations.FailedTargetIsIsolated := by
  intro m1 m2 N1 B1 N2 B2 s hp hname1 hname2 hst hmulti hbuf hovl
  have hclear := lineClear_iff.2 ⟨hbuf, hovl⟩
  have hnext : nextStream s.dec = .dSeek := if_pos hmulti
  rw [runAll_append_of_next (runAll_feedStream_dTgtIofail B1 hp hname1 hst hmulti hclear),
    runAll_feedStream B2 (by exact hp) (by exact hname2) (by exact hnext) (by exact hclear),
    performedWith_performedWith]
  simp [nextStream, hmulti, hst]

/-! ## A line given character by character: O14, O16 -/

section LineByCharacters

variable {s : State} {i : Instr} {c : Byte}

theorem exec_dChar_of_ne_newline (hc : c ≠ Config.newline) (hst : readsChars s.dec.state) :
    exec (.dChar c) s = done (assemble c s) :=
  (exec_dChar_of_readsChars hst c).trans (if_pos hc)

/-- The newline runs the instruction that the line decoder reads from the assembled line. -/
theorem exec_dChar_newline_of_decodeLine (h : decodeLine s.dec.state s.dec.lbuf s.dec.ovl = .ok i) :
    exec (.dChar Config.newline) s = exec i (clearLine s) := by
  obtain ⟨k, hkind, rfl⟩ := decodeLine_eq_ok_iff.1 h
  rw [exec_dChar_newline (readsChars_of_lineKind hkind)]
  exact runLine_eq_exec hkind

/-- One more character of a line is kept while there is room; after that there is none, and the line is overlong. -/
theorem keptLine_append_singleton (p : Params) (L : List Byte) (c : Byte) :
    keptLine p (L ++ [c]) = if lineHasRoom p (keptLine p L).1 then ((keptLine p L).1 ++ [c], (keptLine p L).2)
      else ((keptLine p L).1, true) := by
  unfold keptLine lineHasRoom
  cases p.lineMax with
  | none => rfl
  | some m =>
    by_cases h : L.length < m
    · simp [List.take_of_length_le, h, h.le, Nat.not_lt.2, Nat.succ_le_of_lt h]
    · have hm : m ≤ L.length := Nat.le_of_not_lt h
      simp [List.take_append_of_le_length, hm]

/-- The state with the characters in the line assembler that it keeps of `L`. -/
def holdLine (L : List Byte) (s : State) : State :=
  s.setDec { s.dec with lbuf := (keptLine s.params L).1, ovl := (keptLine s.params L).2 }

theorem assemble_holdLine (L : List Byte) (c : Byte) (s : State) (a : Ack) :
    assemble c ((holdLine L s).setAck a) = (holdLine (L ++ [c]) s).setAck a := by
  rw [holdLine, holdLine, keptLine_append_singleton, assemble]
  split
  case isTrue hroom =>
    rw [if_pos (by exact hroom)]
    rfl
  case isFalse hroom =>
    rw [if_neg (by exact hroom)]
    rfl

/-- The characters of a line, given to an empty assembler, leave it with the characters it keeps. -/
theorem runAll_dChar_holdLine {L : List Byte} (hnl : Config.newline ∉ L) (hst : readsChars s.dec.state)
    (hbuf : s.dec.lbuf = []) (hovl : s.dec.ovl = false) :
    ∃ a, runAll (L.map .dChar) s = .next ((holdLine L s).setAck a) := by
  induction L using List.reverseRecOn with
  | nil =>
    have hkept : keptLine s.params [] = (s.dec.lbuf, s.dec.ovl) := by
      rw [hbuf, hovl, keptLine]
      split <;> simp
    refine ⟨s.link.ack, ?_⟩
    rw [holdLine, hkept]
    rfl
  | append_singleton L c ih =>
    obtain ⟨hL, hc⟩ : Config.newline ∉ L ∧ Config.newline ≠ c := by simpa using hnl
    obtain ⟨a, ha⟩ := ih hL
    rw [List.map_append, runAll_append_of_next ha, List.map_singleton, runAll_singleton,
      exec_dChar_of_ne_newline hc.symm (by exact hst), assemble_holdLine]
    exact ⟨.performed, rfl⟩

/-- Two states that are the same but for the host's answer. -/
def DiffersInAck (s s' : State) : Prop := s' = s.setAck s'.link.ack

theorem differsInAck_keptByDec : KeptByDec DiffersInAck where
  params_eq h := h ▸ rfl
  dec_eq h := h ▸ rfl
  setAck _ h := by rw [DiffersInAck, h]; rfl
  setDec _ h := by rw [DiffersInAck, h]; rfl
  dOutAll _ h := by rw [DiffersInAck, h]; rfl

/-- A finished line does not look at the host's latest answer, and replaces it. -/
theorem runLine_setAck (hst : readsChars s.dec.state) (L : List Byte) (ovl : Bool) (a : Ack) :
    runLine L ovl (s.setAck a) = runLine L ovl s := by
  obtain ⟨t, t', ht, ht', hdiff⟩ := differsInAck_keptByDec.runLine (s := s) (s' := s.setAck a) rfl L ovl
  obtain ⟨u, hu, hack⟩ := accepted_runLine (L := L) (ovl := ovl) hst
  obtain ⟨u', hu', hack'⟩ := accepted_runLine (s := s.setAck a) (L := L) (ovl := ovl) hst
  rw [ht] at hu
  rw [ht'] at hu'
  cases hu
  cases hu'
  rw [ht, ht', hdiff, hack', ← hack]
  rfl

end LineByCharacters

/-- Settles O14. -/
theorem newlineRunsTheDecodedLine : Obligations.NewlineRunsTheDecodedLine := fun _ _ =>
  exec_dChar_newline_of_decodeLine

/-- Settles O16. -/
theorem lineByCharactersIsOneLine : Obligations.LineByCharactersIsOneLine := by
  intro L s i hnl hbuf hovl h
  obtain ⟨k, hkind, rfl⟩ := decodeLine_eq_ok_iff.1 h
  have hst := readsChars_of_lineKind hkind
  obtain ⟨a, hchars⟩ := runAll_dChar_holdLine hnl hst hbuf hovl
  have hclean : clearLine ((holdLine L s).setAck a) = s.setAck a := by
    rw [clearLine_eq, ← hbuf, ← hovl]
    rfl
  rw [runAll_append_of_next hchars, runAll_singleton, ← runLine_eq_exec hkind, ← runLine_setAck hst _ _ a, ← hclean]
  exact exec_dChar_newline (by exact hst)

/-! ## The commands of DEC: O12, O13, O15, O17, O18, O19 -/

section Commands

variable {s : State}

/-! What comes after the end of the session is no concern of DEC (44_decoder_frame.md R153, R177). -/

theorem exec_dChar_of_halt (h : s.dec.state = .dHalt) (c : Byte) :
    exec (.dChar c) s = .next (s.performedWith s.enc s.dec [] []) := by
  simp only [exec, execDChar, h, done_eq_performedWith]

theorem exec_dEof_of_halt (h : s.dec.state = .dHalt) :
    exec .dEof s = .next (s.performedWith s.enc s.dec [] []) := by
  simp only [exec, execDEof, h, done_eq_performedWith]

theorem exec_dRdfail_of_halt (h : s.dec.state = .dHalt) :
    exec .dRdfail s = .next (s.performedWith s.enc s.dec [] []) := by
  simp only [exec, execDRdfail, h, done_eq_performedWith]

/-! The end of the input and the transport failures: the unfinished line is dropped. -/

theorem exec_dEof_of_seek (h : s.dec.state = .dSeek) : exec .dEof s =
    if s.dec.seen then .next (s.performedWith s.enc { s.dec.cleared with state := .dHalt } [] [])
    else .next (s.performedWith s.enc (s.dec.cleared.faulted .noBegin .dHalt) [] [.endCode .noBegin]) := by
  simp only [exec, execDEof, h, done_raiseDec_clearLine]
  rw [done_eq_performedWith]
  rfl

theorem exec_dEof_of_data (h : s.dec.state = .dData) : exec .dEof s =
    .next (s.performedWith s.enc (s.dec.cleared.faulted .shortFile .dHalt) [] [.endCode .shortFile]) := by
  simp only [exec, execDEof, h, done_raiseDec_clearLine]

theorem exec_dEof_of_end (h : s.dec.state = .dEnd) : exec .dEof s =
    .next (s.performedWith s.enc (s.dec.cleared.faulted .noEnd .dHalt) [] [.endCode .noEnd]) := by
  simp only [exec, execDEof, h, done_raiseDec_clearLine]

/-- Outside `D_IDLE` and `D_WAIT` the parser takes characters or has halted. -/
theorem readsChars_or_halt {st : DState} (h : st ≠ .dIdle ∧ st ≠ .dWait) : readsChars st ∨ st = .dHalt := by
  cases st <;> simp_all [readsChars]

theorem exec_dSinkfail_of_accepts (h : s.dec.state = .dData ∨ s.dec.state = .dEnd) : exec .dSinkfail s =
    .next (s.performedWith s.enc (s.dec.cleared.faulted .sinkIo (nextStream s.dec)) [] [.endCode .sinkIo]) := by
  obtain h | h := h <;> simp only [exec, execDSinkfail, h, done_raiseDec_clearLine]

theorem exec_dRdfail_of_readsChars (h : readsChars s.dec.state) : exec .dRdfail s =
    .next (s.performedWith s.enc (s.dec.cleared.faulted .sourceIo .dHalt) [] [.endCode .sourceIo]) := by
  obtain h | h | h := h <;> simp only [exec, execDRdfail, h, done_raiseDec_clearLine]

/-- A character that finds no room is dropped, and the line is overlong. -/
theorem exec_dChar_of_full {c : Byte} (hc : c ≠ Config.newline) (hst : readsChars s.dec.state)
    (hfull : lineHasRoom s.params s.dec.lbuf = false) :
    exec (.dChar c) s = .next (s.performedWith s.enc { s.dec with ovl := true } [] []) := by
  simp [exec_dChar_of_ne_newline hc hst, assemble, hfull, done_eq_performedWith]

end Commands

/-- Settles O12. -/
theorem startOpensASession : Obligations.StartOpensASession := by
  refine ⟨Dec.reset.mode, fun m s => ?_⟩
  split
  case isTrue h => exact exec_dStart_of_closed h m
  case isFalse h => exact exec_of_not_decAccepts h

/-- Settles O13. -/
theorem charEntersTheLineBuffer : Obligations.CharEntersTheLineBuffer := by
  intro c s hc hst
  refine ⟨fun hroom => exec_dChar_of_room hc hst fun k hk => ?_, fun k hk hfull => exec_dChar_of_full hc hst ?_⟩
  · obtain hnone | ⟨k', hk', hlt⟩ := hroom
    · simp [hk] at hnone
    · obtain rfl : k = k' := Option.some.inj (hk.symm.trans hk')
      exact hlt
  · simpa [lineHasRoom, hk, Dec.llen] using hfull

/-- Settles O15. -/
theorem charOutsideASession : Obligations.CharOutsideASession := fun c _ =>
  ⟨fun h => exec_of_not_decAccepts fun ⟨hidle, hwait⟩ => h.elim hidle hwait,
    fun h => ⟨exec_dChar_of_halt h c, exec_dEof_of_halt h⟩⟩

/-- Settles O17. -/
theorem hostAnswersTheHeader : Obligations.HostAnswersTheHeader := fun s =>
  ⟨fun h => ⟨exec_dTgtOk_of_wait h, exec_dTgtIofail_of_wait s h, exec_dTgtResfail_of_wait s h⟩,
    fun h => ⟨inWait_of_ne_wait h, inWait_of_ne_wait h, inWait_of_ne_wait h⟩⟩

/-- Settles O18. -/
theorem endOfInputEndsTheSession : Obligations.EndOfInputEndsTheSession := by
  intro s
  cases hst : s.dec.state with
  | dSeek => exact exec_dEof_of_seek hst
  | dData => exact exec_dEof_of_data hst
  | dEnd => exact exec_dEof_of_end hst
  | dHalt => exact exec_dEof_of_halt hst
  | dIdle | dWait => exact exec_of_not_decAccepts (by simp [decAccepts, hst])

/-- Settles O19. -/
theorem decoderTransportFailures : Obligations.DecoderTransportFailures := by
  intro s
  constructor
  · split
    case isTrue h => exact exec_dSinkfail_of_accepts h
    case isFalse h => exact exec_of_not_decAccepts h
  · split_ifs with hreads hhalt
    · exact exec_dRdfail_of_readsChars hreads
    · exact exec_dRdfail_of_halt hhalt
    · exact exec_of_not_decAccepts fun h => (readsChars_or_halt h).elim hreads hhalt

/-! ## The lines of the data section and the trailer: O21, O25, O27 -/

/-- The row of R70 of a line of the data section. -/
theorem lineKind_of_dataKind {s : State} {L : List Byte} {k : LineKind} (hst : s.dec.state = .dData)
    (h : dataKind L = k) : lineKind s.dec.state L false = some k := by
  rw [hst, ← h]
  rfl

/-- Settles O21. -/
theorem skippedLineChangesNothing : Obligations.SkippedLineChangesNothing := fun _ _ _ hst hL =>
  exec_lSkip_of_not_begin hst (take_eq_beginTag_iff.not.2 hL)

/-- Settles O25. -/
theorem dataSectionEndsOrFaults : Obligations.DataSectionEndsOrFaults := by
  intro s hst
  refine ⟨onLine_raiseDec .shortLine _ s (lineKind_of_dataKind hst rfl), fun c cs => ⟨fun hzero => ?term,
    fun hbad => ?badlen, fun hpos hlen hfew => ?short⟩⟩
  case term =>
    have hkind := lineKind_of_dataKind hst (dataKind_of_zero (cs := cs) hzero)
    exact (runLine_eq_exec hkind).symm.trans (runLine_term hkind)
  case badlen => exact onLine_raiseDec .badLength _ s (lineKind_of_dataKind hst (dataKind_of_bad hbad))
  case short =>
    have hkind : dataKind (c :: cs) = .lShort := (dataKind_of_data hpos hlen).trans (if_neg (Nat.not_le.2 hfew))
    exact onLine_raiseDec .shortLine _ s (lineKind_of_dataKind hst hkind)

/-- Settles O27. -/
theorem trailerEndsOrFaults : Obligations.TrailerEndsOrFaults := by
  intro s hst
  have hend : lineKind s.dec.state Config.endTag false = some .lEnd :=
    hst ▸ lineKind_dEnd_eq_lEnd_iff.2 ⟨rfl, rfl⟩
  exact ⟨(runLine_eq_exec hend).symm.trans (runLine_end hst), fun L ovl hL =>
    onLine_raiseDec .noEnd _ s (hst ▸ lineKind_dEnd_eq_lNoend_iff.2 hL)⟩

/-! ## The bytes of a data line by their index: O26 -/

/-- Byte `j` of the groups of `cs`, any value standing for a character past their end (44_decoder_frame.md R168). -/
def unpackedByte (cs : List Byte) (j : Nat) : Byte :=
  let g := 4 * (j / 3)
  let o := unpack3 (dec6 (cs.getD g 0)) (dec6 (cs.getD (g + 1) 0)) (dec6 (cs.getD (g + 2) 0))
    (dec6 (cs.getD (g + 3) 0))
  if j % 3 = 0 then o.o0 else if j % 3 = 1 then o.o1 else o.o2

/-- Past its first three bytes a line has the bytes of the groups that follow. -/
theorem unpackedByte_add_three (c0 c1 c2 c3 : Byte) (cs : List Byte) (j : Nat) :
    unpackedByte (c0 :: c1 :: c2 :: c3 :: cs) (j + 3) = unpackedByte cs j := by
  have hgroup : 4 * ((j + 3) / 3) = 4 * (j / 3) + 4 := by omega
  simp only [unpackedByte, hgroup, Nat.add_mod_right]
  rfl

/-- A data line has the characters it needs when their sextets have the bits of its bytes. -/
theorem lenneed_le_iff {n : Sextet} {l : Nat} (hpos : 1 ≤ n.toNat) (hlen : n.toNat ≤ 45) :
    lenneed n ≤ l ↔ 8 * n.toNat ≤ 6 * l := by
  rw [lenneed_eq hpos hlen]
  split_ifs <;> omega

/-- The loop of R168 by its index, on a line that has the characters it needs: the last case of the loop is a line with
too few. -/
theorem dataBytes_eq_map_unpackedByte {n : Nat} {cs : List Byte} (h : 8 * n ≤ 6 * cs.length) :
    dataBytes n cs = (List.range n).map (unpackedByte cs) := by
  induction n, cs using dataBytes.induct with
  | case1 cs => rfl
  | case2 c0 c1 cs => rfl
  | case3 c0 c1 c2 cs => rfl
  | case4 k c0 c1 c2 c3 cs ih =>
    have hrest : 8 * k ≤ 6 * cs.length := by
      simp only [List.length_cons] at h
      omega
    have hrange : List.range (k + 3) = 0 :: 1 :: 2 :: (List.range k).map (· + 3) := by
      simp only [List.range_succ_eq_map, List.map_cons, List.map_map]
      rfl
    rw [dataBytes, ih hrest, hrange]
    simp only [List.map_cons, List.map_map, Function.comp_def, unpackedByte_add_three]
    rfl
  | case5 n cs h0 h1 h2 h3 =>
    obtain _ | _ | _ | k := n
    · exact (h0 rfl).elim
    · obtain _ | ⟨c0, _ | ⟨c1, cs⟩⟩ := cs
      case cons.cons => exact (h1 c0 c1 cs rfl rfl).elim
      all_goals simp at h
    · obtain _ | ⟨c0, _ | ⟨c1, _ | ⟨c2, cs⟩⟩⟩ := cs
      case cons.cons.cons => exact (h2 c0 c1 c2 cs rfl rfl).elim
      all_goals simp at h
    · obtain _ | ⟨c0, _ | ⟨c1, _ | ⟨c2, _ | ⟨c3, cs⟩⟩⟩⟩ := cs
      case cons.cons.cons.cons => exact (h3 k c0 c1 c2 c3 cs rfl rfl).elim
      all_goals
        simp only [List.length_cons, List.length_nil] at h
        omega

/-- Settles O26. -/
theorem dataLineEmitsItsBytes : Obligations.DataLineEmitsItsBytes := by
  intro c cs s hst hpos hlen hneed
  have hkind := lineKind_of_dataKind hst ((dataKind_of_data hpos hlen).trans (if_pos hneed))
  have hbytes : lineBytes (c :: cs) = (List.range (dec6 c).toNat).map (unpackedByte cs) :=
    dataBytes_eq_map_unpackedByte ((lenneed_le_iff hpos hlen).1 hneed)
  have hlineInstr : Instr.lData (c :: cs) = lineInstr .lData (c :: cs) false := rfl
  rw [hlineInstr, ← runLine_eq_exec hkind, runLine_data hkind, hbytes, List.map_map]
  rfl

/-! ## The tokens of a header: O23 -/

theorem isSpace_eq_decide_mem (x : Byte) : isSpace x = decide (x ∈ Config.whitespace) := by
  rw [isSpace, List.contains_eq_mem]

/-- A finished token joins the list exactly when it is not empty. -/
theorem flushToken_filter (cur : List Byte) (rest : List (List Byte)) :
    flushToken cur (rest.filter fun t => decide (t ≠ [])) = (cur :: rest).filter fun t => decide (t ≠ []) := by
  by_cases h : cur = [] <;> simp [flushToken, h]

/-- The loop of R156 is the library's split at the whitespace bytes, both holding the token being read; of the pieces
it leaves out the empty ones. -/
theorem tokensFrom_eq_filter_splitOnPPrepend (cur S : List Byte) :
    tokensFrom cur S = (S.splitOnPPrepend isSpace cur.reverse).filter fun t => decide (t ≠ []) := by
  induction S generalizing cur with
  | nil => simpa [tokensFrom] using flushToken_filter cur []
  | cons x S ih =>
    rw [tokensFrom, List.splitOnPPrepend_cons_eq_if]
    split
    case isTrue =>
      rw [ih, List.reverse_reverse, ← flushToken_filter]
      rfl
    case isFalse =>
      rw [ih, List.reverse_append]
      rfl

/-- Settles O23. -/
theorem tokensAreTheMaximalRuns : Obligations.TokensAreTheMaximalRuns := by
  intro S
  have hspace : isSpace = fun x => decide (x ∈ Config.whitespace) := funext isSpace_eq_decide_mem
  rw [tokens, tokensFrom_eq_filter_splitOnPPrepend, hspace]
  rfl

/-! ## The header line: O22 -/

section Header

variable {nameMax : Nat} {L M N : List Byte} {rest : List (List Byte)}

theorem isOctal_iff {d : Byte} : isOctal d = true ↔ 0x30 ≤ d.toNat ∧ d.toNat ≤ 0x37 :=
  Bool.and_eq_true_iff.trans (and_congr decide_eq_true_iff decide_eq_true_iff)

/-- A line with two tokens is a header exactly when its mode token is octal and its name has room. -/
theorem parseHeader_of_tokens (h : tokens (L.drop 6) = M :: N :: rest) :
    parseHeader nameMax L false =
      if (∀ d ∈ M, 0x30 ≤ d.toNat ∧ d.toNat ≤ 0x37) ∧ N.length ≤ nameMax then some (modeOf M, N) else none := by
  have hoct : M.all isOctal = false ↔ ¬ ∀ d ∈ M, 0x30 ≤ d.toNat ∧ d.toNat ≤ 0x37 := by
    simp only [← Bool.not_eq_true, List.all_eq_true, isOctal_iff]
  simp only [parseHeader, h, hoct, ite_not, ite_and, ← Nat.not_lt]
  rfl

/-- An overlong line, or one with fewer than two tokens, is no header. -/
theorem parseHeader_eq_none {ovl : Bool} (h : ovl = true ∨ (tokens (L.drop 6)).length < 2) :
    parseHeader nameMax L ovl = none := by
  unfold parseHeader
  split_ifs with hovl
  · rfl
  · split
    case h_1 htok => simp [hovl, htok] at h
    case h_2 => rfl

end Header

section BeginLine

variable {s : State} {L : List Byte} {ovl : Bool}

theorem exec_lBegin_of_parse {m : Mode} {N : List Byte} (hkind : lineKind s.dec.state L ovl = some .lBegin)
    (hparse : parseHeader s.params.nameMax L ovl = some (m, N)) :
    exec (.lBegin L ovl) s = .next (s.performedWith s.enc
      { s.dec with seen := true, mode := m, name := N, state := .dWait } [] [.hdr m N]) :=
  (runLine_eq_exec hkind).symm.trans (runLine_begin hkind hparse)

theorem exec_lBegin_of_noParse (hkind : lineKind s.dec.state L ovl = some .lBegin)
    (hparse : parseHeader s.params.nameMax L ovl = none) :
    exec (.lBegin L ovl) s = .next (s.performedWith s.enc
      (s.dec.markSeen.faulted .badHeader (nextStream s.dec)) [] [.endCode .badHeader]) := by
  have heff : beginLine L ovl s = raiseDec .badHeader (nextStream s.dec) (s.setDec s.dec.markSeen) := by
    rw [beginLine, hparse]
    rfl
  rw [exec, execLBegin, onLine_selected hkind, heff]
  exact done_raiseDec .badHeader _ _

end BeginLine

/-- Settles O22. -/
theorem beginLineParsesOrFaults : Obligations.BeginLineParsesOrFaults := by
  intro L ovl s hst hlen htag
  have hkind : lineKind s.dec.state L ovl = some .lBegin := hst ▸ lineKind_dSeek_eq_lBegin_iff.2 htag
  refine ⟨fun M N rest hovl htok hoct hroom => exec_lBegin_of_parse hkind ?_,
    fun h => exec_lBegin_of_noParse hkind ?_⟩
  · rw [hovl, parseHeader_of_tokens htok, if_pos ⟨hoct, hroom⟩]
  · obtain hovl | hfew | ⟨M, N, rest, htok, hbad⟩ := h
    · exact parseHeader_eq_none (.inl hovl)
    · exact parseHeader_eq_none (.inr hfew)
    · cases ovl with
      | true => exact parseHeader_eq_none (.inl rfl)
      | false =>
        refine (parseHeader_of_tokens htok).trans (if_neg fun ⟨hoct, hroom⟩ => ?_)
        obtain ⟨d, hd, hrange⟩ | hlong := hbad
        · obtain ⟨hlow, hhigh⟩ := hoct d hd
          omega
        · exact absurd hroom (Nat.not_le.2 hlong)

end Sys2Proof.Proofs

/-! Proofs of the statements of 60_exceptions.md: every command is answered (O44), and a fault of DEC is reported once
(O50). The answer follows from the acceptance tables of the two units. For the fault, an outcome is judged by the state
it leaves (`FaultReport`), and only DEC's own commands and line kinds have a fault to report: ENC's leave DEC's side as
it is (`exec_keeps_of_forEnc`). -/

namespace Sys2Proof.Proofs

open Sys2Proof.Machine

/-! ## Every command is answered: O44 -/

/-- The command is performed, or refused with nothing else changed (60_exceptions.md R205). -/
def Answered (s : State) (o : Out) : Prop := Accepted o ∨ ∃ r : Reason, o = .next (s.refusedWith r)

section Answered

variable {s : State}

theorem answered_onLine {k : LineKind} {L : List Byte} {ovl : Bool} {eff : State} :
    Answered s (onLine k L ovl s eff) := by
  unfold onLine
  split
  case isTrue => exact .inl accepted_done
  case isFalse => exact .inr ⟨.badState, rfl⟩

/-- A command to ENC need be looked at only in the states of its row of R141. -/
theorem answered_of_encAccepts {i : Instr} (h : encAccepts i s.enc.state → Answered s (exec i s)) :
    Answered s (exec i s) := by
  by_cases hst : encAccepts i s.enc.state
  · exact h hst
  · exact .inr ⟨.badState, exec_of_not_encAccepts hst⟩

/-- A command to DEC is performed or refused as its row of R178 says. -/
theorem answered_of_decAccepts {i : Instr} (h : decAccepts i s.dec.state → Accepted (exec i s)) :
    Answered s (exec i s) := by
  by_cases hst : decAccepts i s.dec.state
  · exact .inl (h hst)
  · exact .inr ⟨.badState, exec_of_not_decAccepts hst⟩

theorem answered_eNamech (c : Byte) : Answered s (exec (.eNamech c) s) := answered_of_encAccepts fun hidle => by
  by_cases hroom : s.enc.nlen < s.params.nameMax
  · exact .inl ((accepted_eNamech_iff c).2 ⟨hidle, hroom⟩)
  · exact .inr ⟨.nameFull, exec_eNamech_of_full hidle hroom c⟩

theorem answered_eStart : Answered s (exec .eStart s) := answered_of_encAccepts fun hidle => by
  by_cases hname : s.enc.nlen = 0
  · exact .inr ⟨.noName, exec_eStart_of_noName hidle hname⟩
  · exact .inl (accepted_eStart_iff.2 ⟨hidle, hname⟩)

theorem exec_answered (i : Instr) (s : State) : Answered s (exec i s) := by
  cases i with
  | eSetmode m => exact answered_of_encAccepts fun h => .inl ((accepted_eSetmode_iff m).2 h)
  | eNamech c => exact answered_eNamech c
  | eStart => exact answered_eStart
  | eByte b => exact answered_of_encAccepts fun h => .inl ((accepted_eByte_iff b).2 h)
  | eEof => exact answered_of_encAccepts fun h => .inl (accepted_eEof_iff.2 h)
  | eSinkfail => exact answered_of_encAccepts fun h => .inl (accepted_eSinkfail_iff.2 h)
  | eRdfail => exact answered_of_encAccepts fun h => .inl (accepted_eRdfail_iff.2 h)
  | dStart multi => exact answered_of_decAccepts (accepted_dStart_iff multi).2
  | dChar c => exact answered_of_decAccepts (accepted_dChar_iff c).2
  | dEof => exact answered_of_decAccepts accepted_dEof_iff.2
  | dTgtOk | dTgtIofail | dTgtResfail => exact answered_of_decAccepts accepted_inWait_iff.2
  | dSinkfail => exact answered_of_decAccepts accepted_dSinkfail_iff.2
  | dRdfail => exact answered_of_decAccepts accepted_dRdfail_iff.2
  | lBegin | lSkip | lEmpty | lTerm | lBadlen | lData | lShort | lEnd | lNoend => exact answered_onLine
  | reserved w => exact .inr ⟨.badCommand, rfl⟩
  | resetE | resetD | resetAll => exact .inl accepted_done
  | enc6 | dec6 | pack3 | pack2 | pack1 | unpack3 | unpack2 | unpack1 | lenenc | lendec | lenneed | lenchars =>
    exact .inl accepted_done

end Answered

/-- Settles O44. -/
theorem noInstructionStopsTheMachine : Obligations.NoInstructionStopsTheMachine := by
  intro i s
  obtain ⟨t, ht, hack⟩ | ⟨r, hr⟩ := exec_answered i s
  · exact ⟨t, ht, .inl hack⟩
  · exact ⟨s.refusedWith r, hr, .inr ⟨r, rfl⟩⟩

/-! ## A fault of DEC is reported once: O50 -/

/-- One fault, from the registers `d` to `d'` with the symbols `ys` emitted (60_exceptions.md R200). -/
def FaultEntered (d d' : Dec) (ys : List DSym) : Prop :=
  ∃ code : FaultCode, code ≠ .ok ∧ ys = [.endCode code] ∧ d'.err = code ∧ d'.anyFail = true ∧ d'.multi = d.multi ∧
    (d'.state = nextStream d ∨ d'.state = .dHalt)

/-- The latched code and the fail flag are as before, or cleared. -/
def LatchKeptOrCleared (d d' : Dec) : Prop :=
  (d'.err = d.err ∨ d'.err = .ok) ∧ (d'.anyFail = d.anyFail ∨ d'.anyFail = false)

/-- From `s` to `t` there is one fault with its one symbol, or no fault and no symbol of one. -/
def FaultReport (s t : State) : Prop :=
  ∃ ys : List DSym, t.link.dSink = s.link.dSink ++ ys ∧
    (FaultEntered s.dec t.dec ys ∨
      (∀ code : FaultCode, DSym.endCode code ∈ ys → code = .ok) ∧ LatchKeptOrCleared s.dec t.dec)

section FaultReport

variable {s t : State} {d d' : Dec} {code : FaultCode} {st : DState}

theorem latchKeptOrCleared_of_eq (herr : d'.err = d.err) (hfail : d'.anyFail = d.anyFail) : LatchKeptOrCleared d d' :=
  ⟨.inl herr, .inl hfail⟩

theorem latchKeptOrCleared_of_reset (herr : d'.err = .ok) (hfail : d'.anyFail = false) : LatchKeptOrCleared d d' :=
  ⟨.inr herr, .inr hfail⟩

theorem faultReport_of_silent (hsink : t.link.dSink = s.link.dSink) (hlatch : LatchKeptOrCleared s.dec t.dec) :
    FaultReport s t :=
  ⟨[], by simpa using hsink, .inr ⟨by simp, hlatch⟩⟩

theorem faultReport_of_sameDec (hsink : t.link.dSink = s.link.dSink) (hdec : t.dec = s.dec) : FaultReport s t :=
  faultReport_of_silent hsink (hdec ▸ latchKeptOrCleared_of_eq rfl rfl)

theorem faultReport_refusedWith (r : Reason) : FaultReport s (s.refusedWith r) := faultReport_of_sameDec rfl rfl

/-- Fault entry, whatever of DEC's other registers the command wrote first. -/
theorem faultReport_faulted (e : Enc) (hmulti : d.multi = s.dec.multi) (hcode : code ≠ .ok)
    (hst : st = nextStream s.dec ∨ st = .dHalt) :
    FaultReport s (s.performedWith e (d.faulted code st) [] [.endCode code]) :=
  ⟨[.endCode code], rfl, .inl ⟨code, hcode, rfl, rfl, rfl, hmulti, hst⟩⟩

/-- Fault entry as a line kind does it. -/
theorem faultReport_raiseDec (hcode : code ≠ .ok) : FaultReport s (raiseDec code (nextStream s.dec) s) :=
  ⟨[.endCode code], rfl, .inl ⟨code, hcode, rfl, rfl, rfl, rfl, .inl rfl⟩⟩

theorem faultReport_parseOk (m : Mode) (N : List Byte) : FaultReport s (parseOk m N s) :=
  ⟨[.hdr m N], rfl, .inr ⟨by simp, latchKeptOrCleared_of_eq rfl rfl⟩⟩

/-- The mark of a header seen is no part of the report. -/
theorem faultReport_of_markSeen (h : FaultReport (s.setDec s.dec.markSeen) t) : FaultReport s t := h

theorem faultReport_beginLine (L : List Byte) (ovl : Bool) : FaultReport s (beginLine L ovl s) := by
  unfold beginLine
  split
  next m N _ => exact faultReport_of_markSeen (faultReport_parseOk m N)
  next => exact faultReport_of_markSeen (faultReport_raiseDec (by decide))

/-- The bytes of a data line are no fault. -/
theorem faultReport_bytes (bs : List Byte) : FaultReport s (s.dOutAll (bs.map DSym.byte)) :=
  ⟨bs.map DSym.byte, rfl, .inr ⟨by simp, latchKeptOrCleared_of_eq rfl rfl⟩⟩

/-- `END(0)` is no fault (44_decoder_frame.md R170). -/
theorem faultReport_endOk : FaultReport s ((goDec st s).dOutAll [.endCode .ok]) :=
  ⟨[.endCode .ok], rfl, .inr ⟨by simp, latchKeptOrCleared_of_eq rfl rfl⟩⟩

theorem faultReport_assemble (c : Byte) : FaultReport s (assemble c s) := by
  obtain ⟨-, heq⟩ | ⟨-, heq⟩ := assemble_cases c s <;> rw [heq]
  all_goals exact faultReport_of_silent rfl (latchKeptOrCleared_of_eq rfl rfl)

end FaultReport

/-- If the outcome is a next state, the fault report from `s` to that state is in order. -/
def ReportsFaults (s : State) (o : Out) : Prop := ∀ t, o = .next t → FaultReport s t

section ReportsFaults

variable {s : State}

theorem reportsFaults_of_eq_next {o : Out} {t : State} (ho : o = .next t) (h : FaultReport s t) :
    ReportsFaults s o := by
  rintro u hu
  rw [ho] at hu
  cases hu
  exact h

/-- What the host is told is no part of the report. -/
theorem reportsFaults_done {eff : State} (h : FaultReport s eff) : ReportsFaults s (done eff) :=
  reportsFaults_of_eq_next rfl h

theorem reportsFaults_turnAway (r : Reason) : ReportsFaults s (turnAway r s) :=
  reportsFaults_of_eq_next rfl (faultReport_refusedWith r)

theorem reportsFaults_onLine {k : LineKind} {L : List Byte} {ovl : Bool} {eff : State} (h : FaultReport s eff) :
    ReportsFaults s (onLine k L ovl s eff) := by
  intro t ht
  obtain ⟨-, rfl⟩ | ⟨-, rfl⟩ := onLine_next ht
  · exact h
  · exact faultReport_refusedWith .badState

/-- Every line kind, on whatever line it is presented. -/
theorem reportsFaults_lineInstr (k : LineKind) (L : List Byte) (ovl : Bool) :
    ReportsFaults s (exec (lineInstr k L ovl) s) := by
  cases k with
  | lBegin => exact reportsFaults_onLine (faultReport_beginLine L ovl)
  | lSkip => exact reportsFaults_onLine (faultReport_of_sameDec rfl rfl)
  | lTerm => exact reportsFaults_onLine (faultReport_of_silent rfl (latchKeptOrCleared_of_eq rfl rfl))
  | lData => exact reportsFaults_onLine (faultReport_bytes (lineBytes L))
  | lEnd => exact reportsFaults_onLine faultReport_endOk
  | lEmpty | lBadlen | lShort | lNoend => exact reportsFaults_onLine (faultReport_raiseDec (by decide))

theorem reportsFaults_runLine (L : List Byte) (ovl : Bool) : ReportsFaults s (runLine L ovl s) := by
  cases hkind : lineKind s.dec.state L ovl with
  | none =>
    rw [runLine, hkind]
    exact reportsFaults_turnAway .badState
  | some k =>
    rw [runLine_eq_exec hkind]
    exact reportsFaults_lineInstr k L ovl

/-- The line assembler is no part of the report. -/
theorem reportsFaults_of_clearLine {o : Out} (h : ReportsFaults (clearLine s) o) : ReportsFaults s o := h

/-- A command to DEC need be looked at only in the states of its row of R178. -/
theorem reportsFaults_of_decAccepts {i : Instr} (h : decAccepts i s.dec.state → ReportsFaults s (exec i s)) :
    ReportsFaults s (exec i s) := by
  by_cases hst : decAccepts i s.dec.state
  · exact h hst
  · exact reportsFaults_of_eq_next (exec_of_not_decAccepts hst) (faultReport_refusedWith .badState)

/-- After the end of the session a command changes nothing. -/
theorem reportsFaults_of_noop {i : Instr} (h : exec i s = .next (s.performedWith s.enc s.dec [] [])) :
    ReportsFaults s (exec i s) :=
  reportsFaults_of_eq_next h (faultReport_of_sameDec (by simp) rfl)

/-- A command that drops the unfinished line and ends in a fault. -/
theorem reportsFaults_of_faulted {i : Instr} {d : Dec} {code : FaultCode} {st : DState}
    (h : exec i s = .next (s.performedWith s.enc (d.faulted code st) [] [.endCode code]))
    (hmulti : d.multi = s.dec.multi) (hcode : code ≠ .ok) (hst : st = nextStream s.dec ∨ st = .dHalt) :
    ReportsFaults s (exec i s) :=
  reportsFaults_of_eq_next h (faultReport_faulted s.enc hmulti hcode hst)

theorem reportsFaults_dStart (multi : Bool) : ReportsFaults s (exec (.dStart multi) s) :=
  reportsFaults_of_decAccepts fun hclosed => reportsFaults_of_eq_next (exec_dStart_of_closed hclosed multi)
    (faultReport_of_silent (by simp) (latchKeptOrCleared_of_reset rfl rfl))

theorem reportsFaults_dChar (c : Byte) : ReportsFaults s (exec (.dChar c) s) :=
  reportsFaults_of_decAccepts fun hst => by
    obtain hreads | hhalt := readsChars_or_halt hst
    · by_cases hc : c = Config.newline
      · rw [hc, exec_dChar_newline hreads]
        exact reportsFaults_of_clearLine (reportsFaults_runLine _ _)
      · rw [exec_dChar_of_ne_newline hc hreads]
        exact reportsFaults_done (faultReport_assemble c)
    · exact reportsFaults_of_noop (exec_dChar_of_halt hhalt c)

theorem reportsFaults_dEof_of_seek (h : s.dec.state = .dSeek) : ReportsFaults s (exec .dEof s) := by
  cases hseen : s.dec.seen with
  | true =>
    exact reportsFaults_of_eq_next ((exec_dEof_of_seek h).trans (if_pos hseen))
      (faultReport_of_silent (by simp) (latchKeptOrCleared_of_eq rfl rfl))
  | false =>
    exact reportsFaults_of_faulted ((exec_dEof_of_seek h).trans (if_neg (by simp [hseen]))) rfl (by decide) (.inr rfl)

theorem reportsFaults_dEof : ReportsFaults s (exec .dEof s) :=
  reportsFaults_of_decAccepts fun hst => by
    obtain (hseek | hdata | hend) | hhalt := readsChars_or_halt hst
    · exact reportsFaults_dEof_of_seek hseek
    · exact reportsFaults_of_faulted (exec_dEof_of_data hdata) rfl (by decide) (.inr rfl)
    · exact reportsFaults_of_faulted (exec_dEof_of_end hend) rfl (by decide) (.inr rfl)
    · exact reportsFaults_of_noop (exec_dEof_of_halt hhalt)

theorem reportsFaults_dRdfail : ReportsFaults s (exec .dRdfail s) :=
  reportsFaults_of_decAccepts fun hst => by
    obtain hreads | hhalt := readsChars_or_halt hst
    · exact reportsFaults_of_faulted (exec_dRdfail_of_readsChars hreads) rfl (by decide) (.inr rfl)
    · exact reportsFaults_of_noop (exec_dRdfail_of_halt hhalt)

/-- The answers of the host to a header (44_decoder_frame.md R161 to R163). -/
theorem reportsFaults_inWait {eff : State} (h : FaultReport s eff) : ReportsFaults s (inWait s eff) := by
  intro t ht
  obtain ⟨-, rfl⟩ | ⟨-, rfl⟩ := inWait_next ht
  · exact h
  · exact faultReport_refusedWith .badState

theorem reportsFaults_dSinkfail : ReportsFaults s (exec .dSinkfail s) :=
  reportsFaults_of_decAccepts fun hst =>
    reportsFaults_of_faulted (exec_dSinkfail_of_accepts hst) rfl (by decide) (.inl rfl)

/-- A command to ENC leaves DEC's registers and sink as they are. -/
theorem reportsFaults_of_forEnc {i : Instr} (hi : i.forEnc = true) : ReportsFaults s (exec i s) := by
  obtain ⟨t, _, ht, -, hsplit⟩ := exec_keeps_of_forEnc (splitsInto_keptByEnc s) hi (splitsInto_refl s)
  exact reportsFaults_of_eq_next ht (faultReport_of_sameDec hsplit.dSink.symm hsplit.dec.symm)

theorem exec_reportsFaults (i : Instr) (s : State) : ReportsFaults s (exec i s) := by
  cases i with
  | resetE | eSetmode | eNamech | eStart | eByte | eEof | eSinkfail | eRdfail => exact reportsFaults_of_forEnc rfl
  | resetD | resetAll =>
    exact reportsFaults_done (faultReport_of_silent rfl (latchKeptOrCleared_of_reset rfl rfl))
  | dStart multi => exact reportsFaults_dStart multi
  | dChar c => exact reportsFaults_dChar c
  | dEof => exact reportsFaults_dEof
  | dTgtOk => exact reportsFaults_inWait (faultReport_of_silent rfl (latchKeptOrCleared_of_eq rfl rfl))
  | dTgtIofail | dTgtResfail => exact reportsFaults_inWait (faultReport_raiseDec (by decide))
  | dSinkfail => exact reportsFaults_dSinkfail
  | dRdfail => exact reportsFaults_dRdfail
  | lBegin L ovl => exact reportsFaults_lineInstr .lBegin L ovl
  | lSkip L ovl => exact reportsFaults_lineInstr .lSkip L ovl
  | lEmpty => exact reportsFaults_lineInstr .lEmpty [] false
  | lTerm L => exact reportsFaults_lineInstr .lTerm L false
  | lBadlen L => exact reportsFaults_lineInstr .lBadlen L false
  | lData L => exact reportsFaults_lineInstr .lData L false
  | lShort L => exact reportsFaults_lineInstr .lShort L false
  | lEnd => exact reportsFaults_lineInstr .lEnd Config.endTag false
  | lNoend L ovl => exact reportsFaults_lineInstr .lNoend L ovl
  | reserved w => exact reportsFaults_turnAway .badCommand
  | enc6 | dec6 | pack3 | pack2 | pack1 | unpack3 | unpack2 | unpack1 | lenenc | lendec | lenneed | lenchars =>
    exact reportsFaults_done (faultReport_of_sameDec rfl rfl)

end ReportsFaults

/-- Settles O50. -/
theorem faultsAreReportedOnce : Obligations.FaultsAreReportedOnce := exec_reportsFaults

end Sys2Proof.Proofs

/-! Proofs of the statements of 70_reset_and_hazards.md: the reset commands (O1) and power-on reset (O2). Each reset
command is described once, by the state it leaves; that the two single resets may come in either order then follows
because the later one keeps the registers the earlier one wrote. -/

namespace Sys2Proof.Proofs

open Sys2Proof.Machine

/-! ## The reset commands: O1 -/

section ResetCommands

variable (s : State)

theorem exec_resetE : exec .resetE s = .next (s.performedWith Enc.reset s.dec [] []) := by
  simp [exec, execResetE, resetEnc, done_eq_performedWith]

theorem exec_resetAll : exec .resetAll s = .next (s.performedWith Enc.reset Dec.reset [] []) := by
  simp [exec, execResetAll, resetEnc, resetDec, done_eq_performedWith]

theorem runAll_resetE_resetD : runAll [.resetE, .resetD] s = exec .resetAll s := by
  rw [runAll_cons_of_next (exec_resetE s), runAll_singleton, exec_resetD, exec_resetAll]
  simp

theorem runAll_resetD_resetE : runAll [.resetD, .resetE] s = exec .resetAll s := by
  rw [runAll_cons_of_next (exec_resetD s), runAll_singleton, exec_resetE, exec_resetAll]
  simp

end ResetCommands

/-- Settles O1: the DEC registers a reset leaves are `Dec.reset` in every state. -/
theorem resetCommandsRestoreReset : Obligations.ResetCommandsRestoreReset := fun s =>
  ⟨⟨Dec.reset, rfl, rfl, rfl, rfl, rfl, rfl, rfl, rfl, exec_resetE s, exec_resetD s, exec_resetAll s⟩,
    runAll_resetE_resetD s, runAll_resetD_resetE s⟩

/-! ## Power-on reset: O2 -/

/-- The suggested parameters (log entry 2) are ones a platform may have (00_scope.md R6). -/
theorem suggested_ok : Params.suggested.ok = true := by decide

/-- Settles O2: each register is read off `Enc.reset`, `Dec.reset` and `Link.reset`, which do not mention the
parameters. -/
theorem powerOnLeavesBothUnitsIdle : Obligations.PowerOnLeavesBothUnitsIdle := fun _ =>
  ⟨rfl, rfl, rfl, rfl, rfl, rfl, rfl, rfl, rfl, rfl, rfl, rfl, rfl, rfl, rfl, rfl, Params.suggested, suggested_ok, rfl⟩

end Sys2Proof.Proofs

/-! Proof of the statement about line instructions that the line map does not select (O28). The parser never presents
one, so what the model does with it is its own choice (log entry 8), made in one place: `onLine`. -/

namespace Sys2Proof.Proofs

open Sys2Proof.Machine

/-- A line kind presented where the line map selects another, or none, is refused, whatever its effect would have
been. -/
theorem onLine_of_not_selected {k : LineKind} {L : List Byte} {ovl : Bool} {s eff : State}
    (h : lineKind s.dec.state L ovl ≠ some k) : onLine k L ovl s eff = .next (s.refusedWith .badState) :=
  if_neg h

/-- A well-formed instruction encoded as a line has the kind that the line map gives its line (30_encoding.md R70), and
runs as that kind. -/
theorem exists_exec_eq_onLine_of_encode_line {i : Instr} {st : DState} {L : List Byte} {ovl : Bool}
    (hwf : i.WellFormed) (henc : encode i = .line st L ovl) (s : State) :
    ∃ k eff, lineKind st L ovl = some k ∧ exec i s = onLine k L ovl s eff := by
  cases i with
  | lBegin | lSkip | lTerm | lBadlen | lData | lShort | lNoend =>
    cases henc
    exact ⟨_, _, beq_iff_eq.1 hwf, rfl⟩
  | lEmpty | lEnd =>
    cases henc
    exact ⟨_, _, rfl, rfl⟩
  | _ => cases henc

/-- Settles O28. -/
theorem unselectedLineIsRefused : Obligations.UnselectedLineIsRefused := by
  intro i st L ovl s hwf henc hother
  obtain ⟨k, eff, hkind, hexec⟩ := exists_exec_eq_onLine_of_encode_line hwf henc s
  rw [hexec]
  exact onLine_of_not_selected (hkind ▸ hother)

end Sys2Proof.Proofs
